-- ==== Sys2Proof/Word.lean ====
section
/-! DEFINITION. The words of the GL448 (a byte, a set of hosts, a set of lines) and the table of a fixed
number of like things (ports, sessions, boards, slots, cells). -/

namespace Sys2Proof

/-- A byte of a frame. -/
abbrev Byte := BitVec 8

/-- A host H0 to H3, and the link port of the same number (00_scope.md 6). -/
abbrev HostId := Fin 4

/-- A line L0 to L47. -/
abbrev LineId := Fin 48

/-- A group G0 to G11: lines 4g to 4g+3. -/
abbrev GroupId := Fin 12

/-- A slot of the claim table (R1). -/
abbrev SlotId := Fin 32

/-- A set of hosts, bit n standing for Hn (R161). -/
abbrev HostSet := BitVec 4

/-- A set of lines, bit n standing for Ln (R161). -/
abbrev LineSet := BitVec 48

/-- A table of `n` entries of one kind. -/
structure Table (n : Nat) (α : Type) where
  toList : List α
  len : toList.length = n
deriving DecidableEq, Repr

/-- The entry at `i`. -/
def Table.get {n : Nat} {α : Type} (t : Table n α) (i : Fin n) : α :=
  t.toList[i.val]'(by rw [t.len]; exact i.isLt)

/-- The table whose entry at `i` is `f i`. -/
def Table.ofFn {n : Nat} {α : Type} (f : Fin n → α) : Table n α :=
  ⟨(List.finRange n).map f, by simp⟩

/-- The table with `a` in place of the entry at `i`. -/
def Table.set {n : Nat} {α : Type} (t : Table n α) (i : Fin n) (a : α) : Table n α :=
  ⟨t.toList.set i.val a, by simp [t.len]⟩

/-- The table of `n` entries all equal to `a`. -/
def Table.fill {α : Type} (n : Nat) (a : α) : Table n α :=
  ⟨List.replicate n a, by simp⟩

/-- The set of the members of a finite range that satisfy `p`, as a word with bit i standing for i. -/
def bitsWhere {n : Nat} (p : Fin n → Bool) : BitVec n :=
  BitVec.ofFnLE p

/-- The word of `n` bits with bit `i` alone set. -/
def bitOf {n : Nat} (i : Fin n) : BitVec n :=
  bitsWhere fun j => decide (j = i)

/-- Whether bit `i` of a set is set. -/
def has {n : Nat} (w : BitVec n) (i : Fin n) : Bool :=
  w.getLsbD i.val

end Sys2Proof
end

