-- ==== Sys2Proof/Config.lean ====
section
/-! DEFINITION. What the part fixes (the units of its intervals) and what the spec leaves open (free values, with
no body). -/

namespace Sys2Proof.Config

/-- The sampling tick, in microseconds (R141). -/
def tickPeriod : Nat := 2

/-- Blanking: eight tick periods, in microseconds (R79, R142). -/
def blankingTime : Nat := 16

/-- The unit of the settle time, in microseconds (R4). -/
def settleUnit : Nat := 10

/-- The unit of the yield window, in microseconds (R4). -/
def yieldUnit : Nat := 1000

/-- The unit of the wait limit, in microseconds (R4). -/
def waitUnit : Nat := 10000

/-- The unit of the heartbeat period, in microseconds (R90). -/
def heartbeatUnit : Nat := 10000

/-- The unit of the vote window, in microseconds (R121). -/
def voteUnit : Nat := 100000

/-- DESIGN CHOICE, log 11, a free value (safe): whether a CLEAR ALL that carries a payload and comes from a host outside the
admin mask is answered BAD_ARGUMENT (true) or NOT_ADMIN (false). R137 gives both answers and no order. -/
opaque clearAllArgumentFirst : Bool

end Sys2Proof.Config
end

