-- ==== Sys2Proof/Syntax.lean ====
section
/-! DEFINITION. The names of the GL448 (states, kinds, codes) and its commands: one constructor of `Instr` for
each row of spec/opcode_table.json. -/

namespace Sys2Proof

/-- The 21 request kinds (R161). -/
inductive Kind where
  | status | attach | detach | heartbeat
  | claim | release | queryClaim
  | setLevels | reconfigure | clearFault | readLines | queryLine
  | fetchNotices
  | readProfile | setLineProfile | setHostProfile | setTiming | commitProfile | reopenVote | clearAll | setBond
deriving DecidableEq, Repr

/-- The blocks that own request kinds (R92). -/
inductive Owner where
  | sessionUnit | claimTable | lineCells | noticeBoard | profileUnit
deriving DecidableEq, Repr

/-- The status codes of R161, in the order of their codes 0x00 to 0x16. -/
inductive Status where
  | ok | queued | busy | frameError | unknownKind | badArgument | notAttached | lapsed | staleEpoch
  | noSuchClaim | ticketInUse | notPermitted | bondSplit | quotaExceeded | noticeFull | tableFull
  | wrongState | wrongMode | lineFault | notAdmin | profileLocked | groupBusy | belowUse
deriving DecidableEq, Repr

/-- The states of a link port (R149). -/
inductive LinkState where
  | idle | receiving | pending | answered
deriving DecidableEq, Repr

/-- The states of a session (R90). -/
inductive SessState where
  | detached | attached | lapsed
deriving DecidableEq, Repr

/-- The states of a record (R1, R5). -/
inductive RecState where
  | waiting | settling | held | yielding
deriving DecidableEq, Repr

/-- The drive modes of a line setting (R3, R71). -/
inductive Mode where
  | input | inputPullup | inputPulldown | openDrain | pushPull
deriving DecidableEq, Repr

/-- The edge selections of a line setting (R3, R77). -/
inductive Watch where
  | none | rising | falling | both
deriving DecidableEq, Repr

/-- The rest states of a line (R72). -/
inductive Rest where
  | float | pullUp | pullDown | driveLow | driveHigh
deriving DecidableEq, Repr

/-- What a pin does (R69). -/
inductive Presented where
  | float | weakPullUp | weakPullDown | driveLow | driveHigh
deriving DecidableEq, Repr

/-- The kinds of ticket notice (R107). -/
inductive NoticeKind where
  | granted | revokeNotice | revokeWithdrawn | revoked | waitExpired | denied
deriving DecidableEq, Repr

/-- The profile states OPEN and COMMITTED (R121). -/
inductive ProfileState where
  | opened | committed
deriving DecidableEq, Repr

/-- Why a record is freed (R8). -/
inductive FreeCause where
  | released | waitExpired | denied | revoked | sessionEnd | clearAll
deriving DecidableEq, Repr

/-- A line setting (R3). -/
structure Setting where
  mode : Mode
  level : Bool
  watch : Watch
  filter : Fin 4
deriving DecidableEq, Repr

/-- An entry of a record's line list (R3). -/
structure LineEntry where
  line : LineId
  setting : Setting
deriving DecidableEq, Repr

/-- The fields of a request frame that passed the port's checks (R152): the kind byte as sent. -/
structure Frame where
  kind : Byte
  epoch : BitVec 16
  seq : Byte
  payload : List Byte
  crc : Byte
deriving DecidableEq, Repr

/-- The commands of the GL448. `dt` is the time, in microseconds of the part's oscillator, that has passed since
the event before (log 1). The events of the Time Base carry no `dt`: they come at the moment they were set for. -/
inductive Instr where
  /-- RESETn falls, or power is applied. -/
  | hardwareReset (dt : Nat)
  /-- RESETn rises; `levels` is the first sample. -/
  | resetnRise (dt : Nat) (levels : LineSet)
  /-- A write transaction on port `n` ends: `bits` are the bits shifted in after the opener 0x3C, first bit first;
  `early` says that CSn fell before RESETn last rose. -/
  | requestFrame (dt : Nat) (n : HostId) (early : Bool) (bits : List Bool)
  /-- A read transaction on port `n` that clocked `clocks` bits after the opener 0xC3. -/
  | readTransaction (dt : Nat) (n : HostId) (early : Bool) (clocks : Nat)
  /-- A transaction on port `n` whose bits, opener included, hold no known opener. It has no `early`: whatever its CSn
  fell in, it changes no port state, and its SDO is log 14. -/
  | ignoredTransaction (dt : Nat) (n : HostId) (bits : List Bool)
  /-- The Session Unit takes host `n`'s STATUS. -/
  | status (dt : Nat) (n : HostId)
  /-- The Session Unit takes host `n`'s ATTACH. -/
  | attach (dt : Nat) (n : HostId)
  /-- The Session Unit takes host `n`'s DETACH. -/
  | detach (dt : Nat) (n : HostId)
  /-- The Session Unit takes host `n`'s HEARTBEAT. -/
  | heartbeat (dt : Nat) (n : HostId)
  /-- The Claim Table Controller takes the CLAIM its arbiter chooses. -/
  | claim (dt : Nat)
  /-- The Claim Table Controller takes the RELEASE its arbiter chooses. -/
  | release (dt : Nat)
  /-- The Claim Table Controller takes the QUERY CLAIM its arbiter chooses. -/
  | queryClaim (dt : Nat)
  /-- The Line Cell Array takes the SET LEVELS it chooses. -/
  | setLevels (dt : Nat)
  /-- The Line Cell Array takes the RECONFIGURE it chooses. -/
  | reconfigure (dt : Nat)
  /-- The Line Cell Array takes the CLEAR FAULT it chooses. -/
  | clearFault (dt : Nat)
  /-- The Line Cell Array takes the READ LINES it chooses. -/
  | readLines (dt : Nat)
  /-- The Line Cell Array takes the QUERY LINE it chooses. -/
  | queryLine (dt : Nat)
  /-- The Notice Board takes host `n`'s FETCH NOTICES. -/
  | fetchNotices (dt : Nat) (n : HostId)
  /-- The Profile Unit takes the READ PROFILE it chooses. -/
  | readProfile (dt : Nat)
  /-- The Profile Unit takes the SET LINE PROFILE it chooses. -/
  | setLineProfile (dt : Nat)
  /-- The Profile Unit takes the SET BOND it chooses. -/
  | setBond (dt : Nat)
  /-- The Profile Unit takes the SET HOST PROFILE it chooses. -/
  | setHostProfile (dt : Nat)
  /-- The Profile Unit takes the SET TIMING it chooses. -/
  | setTiming (dt : Nat)
  /-- The Profile Unit takes the COMMIT PROFILE it chooses. -/
  | commitProfile (dt : Nat)
  /-- The Profile Unit takes the REOPEN VOTE it chooses. -/
  | reopenVote (dt : Nat)
  /-- The Profile Unit takes the CLEAR ALL it chooses. -/
  | clearAll (dt : Nat)
  /-- The sampling tick; `levels` is what the pins read. -/
  | samplingTick (levels : LineSet)
  /-- The blanking of line `l` ends. -/
  | blankingEnd (l : LineId)
  /-- The settle end of the record in slot `i` arrives. -/
  | settleEnd (i : SlotId)
  /-- The yield end of the record in slot `i` arrives. -/
  | yieldEnd (i : SlotId)
  /-- The wait end of the record in slot `i` arrives. -/
  | waitEnd (i : SlotId)
  /-- The heartbeat deadline of host `h` arrives. -/
  | heartbeatExpiry (h : HostId)
  /-- The vote deadline arrives. -/
  | voteDeadline
deriving DecidableEq, Repr

end Sys2Proof
end

