-- ==== Sys2Proof/Decode.lean ====
section
/-! DEFINITION. The bytes on the links: bits and bytes, the CRC-8, the codes of R161, and the decoding of request
frames (R152, R153) with its encoder, and the openers (R150); and `decodeTableWord`, which no word satisfies, because no row of
spec/opcode_table.json is given any bits. -/

namespace Sys2Proof

/-- The command a word spells by the table's bits. The table gives no row any bits ("fields" is empty in all 33), so
there is none. -/
def decodeTableWord (_nbits _w : Nat) : Option Instr := none

/-! ## Bits and bytes -/

/-- A byte's bits, most significant bit first (R150). -/
def bitsOfByte (b : Byte) : List Bool :=
  [b.getLsbD 7, b.getLsbD 6, b.getLsbD 5, b.getLsbD 4, b.getLsbD 3, b.getLsbD 2, b.getLsbD 1, b.getLsbD 0]

/-- The bits of a list of bytes, in the order they are shifted (R150). -/
def bitsOf (bs : List Byte) : List Bool :=
  bs.flatMap bitsOfByte

/-- The whole bytes of a list of bits, most significant bit first; bits that do not fill a byte are left off (R150, R151). -/
def bytesOf : List Bool → List Byte
  | b7 :: b6 :: b5 :: b4 :: b3 :: b2 :: b1 :: b0 :: rest =>
    BitVec.ofFnLE (n := 8) (fun i => [b0, b1, b2, b3, b4, b5, b6, b7].getD i.val false) :: bytesOf rest
  | _ => []

/-- The two bytes of a 16-bit word, high byte first (R161). -/
def u16Bytes (w : BitVec 16) : List Byte :=
  [w.extractLsb' 8 8, w.extractLsb' 0 8]

/-- The two bytes of a number below 65536, high byte first (R161). -/
def natBytes2 (n : Nat) : List Byte :=
  u16Bytes (BitVec.ofNat 16 n)

/-- A number below 256 as one byte. -/
def natByte (n : Nat) : Byte :=
  BitVec.ofNat 8 n

/-- The 16-bit word of two bytes, high byte first (R161). -/
def u16Of (hi lo : Byte) : BitVec 16 :=
  hi ++ lo

/-- The six bytes of a line set: bit b of byte j stands for line 8j + b (R161). -/
def lineSetBytes (w : LineSet) : List Byte :=
  [w.extractLsb' 0 8, w.extractLsb' 8 8, w.extractLsb' 16 8, w.extractLsb' 24 8, w.extractLsb' 32 8, w.extractLsb' 40 8]

/-- A host set as one byte, bits 7 to 4 sent as 0 (R161). -/
def hostSetByte (w : HostSet) : Byte :=
  w.setWidth 8

/-! ## Openers -/

/-- The opener's eight bits of a transaction, most significant bit first; absent where fewer were shifted (R150). -/
def openerOf (bits : List Bool) : Option (List Bool) :=
  if 8 ≤ bits.length then some (bits.take 8) else none

/-- 0x3C, most significant bit first (R150). -/
def writeOpener : List Bool := [false, false, true, true, true, true, false, false]

/-- 0xC3, most significant bit first (R150). -/
def readOpener : List Bool := [true, true, false, false, false, false, true, true]

/-! ## CRC-8 -/

/-- The register takes one message bit (R154). -/
def crcBit (reg : Byte) (bit : Bool) : Byte :=
  if (reg.getLsbD 7 ^^ bit) = true then (reg <<< 1) ^^^ 0x07#8 else reg <<< 1

/-- The CRC-8 of a list of bytes: x^8 + x^2 + x + 1, register starting at 0, most significant bit first (R154). -/
def crc8 (bs : List Byte) : Byte :=
  (bitsOf bs).foldl crcBit 0#8

/-! ## Codes -/

/-- The code of a request kind (R161). -/
def Kind.code : Kind → Byte
  | .status => 0x01#8 | .attach => 0x02#8 | .detach => 0x03#8 | .heartbeat => 0x04#8
  | .claim => 0x10#8 | .release => 0x11#8 | .queryClaim => 0x12#8
  | .setLevels => 0x20#8 | .reconfigure => 0x21#8 | .clearFault => 0x22#8 | .readLines => 0x23#8
  | .queryLine => 0x24#8 | .fetchNotices => 0x30#8
  | .readProfile => 0x40#8 | .setLineProfile => 0x41#8 | .setHostProfile => 0x42#8 | .setTiming => 0x43#8
  | .commitProfile => 0x44#8 | .reopenVote => 0x45#8 | .clearAll => 0x46#8 | .setBond => 0x47#8

/-- Every request kind of the table of R161. -/
def allKinds : List Kind :=
  [.status, .attach, .detach, .heartbeat, .claim, .release, .queryClaim, .setLevels, .reconfigure, .clearFault,
   .readLines, .queryLine, .fetchNotices, .readProfile, .setLineProfile, .setHostProfile, .setTiming,
   .commitProfile, .reopenVote, .clearAll, .setBond]

/-- The kind a code names; absent for a code the table of R161 does not list (R156). -/
def kindOf (b : Byte) : Option Kind :=
  allKinds.find? fun k => k.code == b

/-- The block that owns a kind (R92). -/
def Kind.owner : Kind → Owner
  | .status | .attach | .detach | .heartbeat => .sessionUnit
  | .claim | .release | .queryClaim => .claimTable
  | .setLevels | .reconfigure | .clearFault | .readLines | .queryLine => .lineCells
  | .fetchNotices => .noticeBoard
  | .readProfile | .setLineProfile | .setHostProfile | .setTiming | .commitProfile | .reopenVote | .clearAll
  | .setBond => .profileUnit

/-- The code of a status (R161). -/
def Status.code : Status → Byte
  | .ok => 0x00#8 | .queued => 0x01#8 | .busy => 0x02#8 | .frameError => 0x03#8 | .unknownKind => 0x04#8
  | .badArgument => 0x05#8 | .notAttached => 0x06#8 | .lapsed => 0x07#8 | .staleEpoch => 0x08#8
  | .noSuchClaim => 0x09#8 | .ticketInUse => 0x0A#8 | .notPermitted => 0x0B#8 | .bondSplit => 0x0C#8
  | .quotaExceeded => 0x0D#8 | .noticeFull => 0x0E#8 | .tableFull => 0x0F#8 | .wrongState => 0x10#8
  | .wrongMode => 0x11#8 | .lineFault => 0x12#8 | .notAdmin => 0x13#8 | .profileLocked => 0x14#8
  | .groupBusy => 0x15#8 | .belowUse => 0x16#8

/-- The code of a record state (R161). -/
def RecState.code : RecState → Byte
  | .waiting => 1#8 | .settling => 2#8 | .held => 3#8 | .yielding => 4#8

/-- The code of a session state (R161). -/
def SessState.code : SessState → Byte
  | .detached => 0#8 | .attached => 1#8 | .lapsed => 2#8

/-- The code of a notice kind (R161). -/
def NoticeKind.code : NoticeKind → Byte
  | .granted => 1#8 | .revokeNotice => 2#8 | .revokeWithdrawn => 3#8 | .revoked => 4#8 | .waitExpired => 5#8
  | .denied => 6#8

/-- The code of a drive mode (R161). -/
def Mode.code : Mode → Byte
  | .input => 0#8 | .inputPullup => 1#8 | .inputPulldown => 2#8 | .openDrain => 3#8 | .pushPull => 4#8

/-- The mode of a code; codes 5 to 7 name none (R16). -/
def Mode.ofCode (n : Nat) : Option Mode :=
  match n with
  | 0 => some .input
  | 1 => some .inputPullup
  | 2 => some .inputPulldown
  | 3 => some .openDrain
  | 4 => some .pushPull
  | _ => none

/-- The code of a watch (R161). -/
def Watch.code : Watch → Byte
  | .none => 0#8 | .rising => 1#8 | .falling => 2#8 | .both => 3#8

/-- The watch of a two-bit code (R161). -/
def Watch.ofCode (n : Nat) : Watch :=
  match n with
  | 0 => .none
  | 1 => .rising
  | 2 => .falling
  | _ => .both

/-- The code of a rest state (R161). -/
def Rest.code : Rest → Byte
  | .float => 0#8 | .pullUp => 1#8 | .pullDown => 2#8 | .driveLow => 3#8 | .driveHigh => 4#8

/-- The rest state of a code; codes 5 to 7 name none (R125). -/
def Rest.ofCode (n : Nat) : Option Rest :=
  match n with
  | 0 => some .float
  | 1 => some .pullUp
  | 2 => some .pullDown
  | 3 => some .driveLow
  | 4 => some .driveHigh
  | _ => none

/-- The setting byte of a line entry: bits 2 to 0 mode, bit 3 level, bits 5 and 4 watch, bits 7 and 6 filter code (R161). -/
def Setting.byte (st : Setting) : Byte :=
  st.mode.code ||| (if st.level then 0x08#8 else 0#8) ||| (st.watch.code <<< 4) ||| (BitVec.ofNat 8 st.filter.val <<< 6)

/-- The setting a byte gives; absent where the mode code is 5 to 7 (R16, R161). -/
def Setting.ofByte (b : Byte) : Option Setting :=
  (Mode.ofCode (b.extractLsb' 0 3).toNat).map fun m =>
    { mode := m, level := b.getLsbD 3, watch := Watch.ofCode (b.extractLsb' 4 2).toNat, filter := (b.extractLsb' 6 2).toFin }

/-! ## Request frames -/

/-- What the port makes of a written frame (R153): a reason for FRAME_ERROR, or the frame. -/
inductive FrameCheck where
  | bad (reason : Byte)
  | good (f : Frame)
deriving DecidableEq, Repr

/-- The bytes a CRC of a request covers: kind through payload (R154). -/
def Frame.covered (f : Frame) : List Byte :=
  f.kind :: u16Bytes f.epoch ++ [f.seq, natByte f.payload.length] ++ f.payload

/-- The bytes of a request frame, after the opener (R152). -/
def encodeFrame (f : Frame) : List Byte :=
  f.covered ++ [f.crc]

/-- The frame with the CRC byte its other fields call for. -/
def Frame.sealed (f : Frame) : Frame :=
  { f with crc := crc8 f.covered }

/-- The checks of R153 in their order, on the bytes stored, the number of whole bytes received and whether the
transaction ended within a byte. -/
def checkFrame (stored : List Byte) (count : Nat) (cut : Bool) : FrameCheck :=
  if cut || decide (count < 6) then .bad 0x01#8
  else
    match stored with
    | k :: e1 :: e0 :: sq :: len :: rest =>
      if 60 < len.toNat then .bad 0x02#8
      else if count ≠ 6 + len.toNat then .bad 0x01#8
      else
        match rest.drop len.toNat with
        | [] => .bad 0x01#8
        | c :: _ =>
          let payload := rest.take len.toNat
          if c = crc8 (k :: e1 :: e0 :: sq :: len :: payload) then
            .good { kind := k, epoch := u16Of e1 e0, seq := sq, payload := payload, crc := c }
          else .bad 0x03#8
    | _ => .bad 0x01#8

/-- The sequence echo of a FRAME_ERROR: the fourth byte received, or 0 where fewer than four were (R153). -/
def errorEcho (stored : List Byte) : Byte :=
  stored.getD 3 0#8

/-- The frame of a write transaction's bits: what the port stores, counts and checks (R151, R153). -/
def frameOfBits (bits : List Bool) : FrameCheck :=
  checkFrame ((bytesOf bits).take 66) (bytesOf bits).length (decide (bits.length % 8 ≠ 0))

end Sys2Proof
end

