-- ==== Sys2Proof/Machine/State.lean ====
section
/-! DEFINITION. The state of the GL448, block by block, and the machine right after reset. -/

namespace Sys2Proof.Machine

/-- What stops the machine. The GL448 has no machine fault: malformed and refused requests are answered with a
status code (R161) and a drive fault parks a line (R80), which are effects on State. So there is none. -/
inductive Fault
deriving DecidableEq, Repr

/-- What the model refuses. -/
inductive Refusal where
  /-- Raised by exec's arm of a command that has no meaning yet, under the row's mnemonic (safe). No arm uses it. -/
  | notModelled (mnemonic : String)
deriving DecidableEq, Repr

/-- A response (R157): the status code, the sequence echo and the payload. -/
structure Response where
  status : Status
  seq : Byte
  payload : List Byte
deriving DecidableEq, Repr

/-- The signature of a request (R155). -/
structure Signature where
  kind : Byte
  epoch : BitVec 16
  seq : Byte
  crc : Byte
deriving DecidableEq, Repr

/-- The request a port has in hand while PENDING (R156). `admitted` is the session state it was admitted under, absent
while the request is at the Session Unit (R92, R94). -/
structure Request where
  kind : Kind
  epoch : BitVec 16
  seq : Byte
  payload : List Byte
  crc : Byte
  admitted : Option SessState
deriving DecidableEq, Repr

/-- A link port (R149). `sdo` is the model's record of the bits SDOn drove in the last transaction, first bit first
(log 14). -/
structure Port where
  link : LinkState
  buffer : List Byte
  request : Option Request
  response : Option Response
  replay : Bool
  saved : Option Response
  signature : Option Signature
  dropped : Bool
  sdo : List Bool
deriving DecidableEq, Repr

/-- A session context (R90). -/
structure Session where
  state : SessState
  epoch : BitVec 16
  period : Nat
  deadline : Option Nat
  voted : Bool
deriving DecidableEq, Repr

/-- A non-FREE record of the claim table (R2). `span` is the model's own: the interval the running deadline was set by, in its
unit, 0 where no deadline is held (R143: read for that deadline alone; log 23). -/
structure Record where
  state : RecState
  owner : HostId
  ticket : Byte
  priority : Fin 4
  entry : Nat
  lines : List LineEntry
  preempt : Bool
  waitLimit : Option Nat
  deadline : Option Nat
  span : Nat
deriving DecidableEq, Repr

/-- The record holding a line, as the line's cell knows it (R69). -/
structure Holder where
  slot : SlotId
  owner : HostId
  ticket : Byte
  state : RecState
deriving DecidableEq, Repr

/-- A line cell (R69). `blankedTo` is the model's own: the time of the last blanking end (R142, log 19). -/
structure Cell where
  holder : Option Holder
  applied : Option Setting
  parked : Bool
  presented : Presented
  raw : Bool
  filtered : Bool
  run : Nat
  blanking : Option Nat
  blankedTo : Nat
deriving DecidableEq, Repr

/-- The session flags of a board (R106). -/
structure SessionFlags where
  lapsedHeartbeat : Bool
  lapsedCleared : Bool
  voteOpen : Bool
  profileOpened : Bool
  voteFailed : Bool
deriving DecidableEq, Repr

/-- A notice board (R106) and its ATTN output: `attn` says whether ATTNn is asserted (R114). -/
structure Board where
  notices : List (Byte × NoticeKind)
  change : LineSet
  overrun : LineSet
  fault : LineSet
  flags : SessionFlags
  attn : Bool
deriving DecidableEq, Repr

/-- The profile of one line (R121). -/
structure LineProfile where
  mask : HostSet
  rest : Rest
deriving DecidableEq, Repr

/-- The profile of one host (R121). -/
structure HostProfile where
  priority : Fin 4
  quota : Nat
deriving DecidableEq, Repr

/-- The profile (R121). -/
structure Profile where
  lines : Table 48 LineProfile
  bonded : BitVec 12
  hosts : Table 4 HostProfile
  admin : HostSet
  settle : Nat
  yieldWindow : Nat
  voteWindow : Nat
  state : ProfileState
deriving DecidableEq, Repr

/-- The reopen vote (R133). -/
structure Vote where
  running : Bool
  deadline : Option Nat
  required : HostSet
  voted : HostSet
deriving DecidableEq, Repr

/-- The state of the part, and the queue of commands that wait. -/
structure State where
  /-- The model's own: the commands that wait, first in, first out. -/
  pending : List Instr
  /-- The time, in microseconds of the part's oscillator (R139). -/
  now : Nat
  /-- When the next sampling tick falls (R141). -/
  nextTick : Nat
  /-- The level of the RESETn pin. -/
  resetn : Bool
  ports : Table 4 Port
  sessions : Table 4 Session
  slots : Table 32 (Option Record)
  /-- The set of eligible preemptors the CTC keeps (R50), ascending by slot. -/
  eligible : List SlotId
  /-- The CTC arbiter's last-served link (R12). -/
  ctcLast : HostId
  cells : Table 48 Cell
  /-- The LCA's last-served link (R83). -/
  lcaLast : HostId
  boards : Table 4 Board
  profile : Profile
  vote : Vote
  /-- The PU's last-served link (R123). -/
  puLast : HostId
deriving DecidableEq, Repr

/-! ## Reset values -/

/-- A port after hardware reset (R149). -/
def Port.reset : Port where
  link := .idle
  buffer := []
  request := none
  response := none
  replay := false
  saved := none
  signature := none
  dropped := false
  sdo := []

/-- A session context after hardware reset (R90). -/
def Session.reset : Session where
  state := .detached
  epoch := 0#16
  period := 0
  deadline := none
  voted := false

/-- A line cell when RESETn rises, `level` being its first sample (R69, R74). -/
def Cell.reset (level : Bool) : Cell where
  holder := none
  applied := none
  parked := false
  presented := .float
  raw := level
  filtered := level
  run := 0
  blanking := none
  blankedTo := 0

/-- The flags of an empty board (R106). -/
def SessionFlags.clear : SessionFlags where
  lapsedHeartbeat := false
  lapsedCleared := false
  voteOpen := false
  profileOpened := false
  voteFailed := false

/-- An empty board, its ATTN deasserted (R106, R114). -/
def Board.empty : Board where
  notices := []
  change := 0#48
  overrun := 0#48
  fault := 0#48
  flags := SessionFlags.clear
  attn := false

/-- The profile's defaults (R121). -/
def Profile.reset : Profile where
  lines := Table.fill 48 { mask := 0xF#4, rest := .float }
  bonded := 0#12
  hosts := Table.fill 4 { priority := 0, quota := 8 }
  admin := 0x1#4
  settle := 10
  yieldWindow := 50
  voteWindow := 20
  state := .opened

/-- The vote after hardware reset (R133). -/
def Vote.reset : Vote where
  running := false
  deadline := none
  required := 0#4
  voted := 0#4

/-- The machine right after reset: RESETn has risen and the first sample has been taken. DESIGN CHOICE, log 9
(unsafe): the first sample reads every line low. DESIGN CHOICE, log 1: the time starts at 0. -/
def State.reset : State where
  pending := []
  now := 0
  nextTick := Config.tickPeriod
  resetn := true
  ports := Table.fill 4 Port.reset
  sessions := Table.fill 4 Session.reset
  slots := Table.fill 32 none
  eligible := []
  ctcLast := 3
  cells := Table.fill 48 (Cell.reset false)
  lcaLast := 3
  boards := Table.fill 4 Board.empty
  profile := Profile.reset
  vote := Vote.reset
  puLast := 3

end Sys2Proof.Machine
end

