-- ==== Sys2Proof/Machine/Operands.lean ====
section
/-! DEFINITION. The operand forms of the commands: what each request's payload says (R161), absent where the rule of its
kind answers BAD_ARGUMENT. -/

namespace Sys2Proof.Machine

/-- Insert `a` into a list ordered by `before`, ahead of the members it is level with. -/
def insertBy {α : Type} (before : α → α → Bool) (a : α) : List α → List α
  | [] => [a]
  | b :: bs => if before b a then b :: insertBy before a bs else a :: b :: bs

/-- Order a list by `before`, keeping the order of members that are level. -/
def sortBy {α : Type} (before : α → α → Bool) (l : List α) : List α :=
  l.foldr (insertBy before) []

/-- What a CLAIM asks for (1.6): the entries ascending by line (R3). -/
structure ClaimArgs where
  ticket : Byte
  preempt : Bool
  limit : Option Nat
  entries : List LineEntry
deriving DecidableEq, Repr

/-- The line entries of a CLAIM, two bytes each; absent where a line is 48 or above or a mode code is 5 to 7 (R16). -/
def lineEntries : List Byte → Option (List LineEntry)
  | [] => some []
  | [_] => none
  | l :: b :: rest =>
    if h : l.toNat < 48 then
      match Setting.ofByte b, lineEntries rest with
      | some st, some es => some ({ line := ⟨l.toNat, h⟩, setting := st } :: es)
      | _, _ => none
    else none

/-- The entries in ascending order of line number (R3). -/
def sortEntries (es : List LineEntry) : List LineEntry :=
  sortBy (fun a b => decide (a.line < b.line)) es

/-- The checks of R16 on a CLAIM whose fixed fields have been read: ticket, line count, length, lines named twice, and a
preempting try-only claim. -/
def claimFields (ticket : Byte) (preempt : Bool) (limit : Option Nat) (k : Byte) (es : List Byte) : Option ClaimArgs :=
  if ticket = 0#8 ∨ k.toNat = 0 ∨ 8 < k.toNat ∨ es.length ≠ 2 * k.toNat ∨ (preempt = true ∧ limit = some 0) then none
  else
    match lineEntries es with
    | none => none
    | some entries =>
      if (entries.map fun e => e.line).Nodup then
        some { ticket := ticket, preempt := preempt, limit := limit, entries := sortEntries entries }
      else none

/-- A CLAIM's payload (R16, R161): bit 0 of the flags is preempt, bit 1 says that a wait limit follows, the others are
ignored. -/
def claimArgs (payload : List Byte) : Option ClaimArgs :=
  match payload with
  | t :: fl :: rest =>
    if fl.getLsbD 1 then
      match rest with
      | hi :: lo :: k :: es => claimFields t (fl.getLsbD 0) (some (u16Of hi lo).toNat) k es
      | _ => none
    else
      match rest with
      | k :: es => claimFields t (fl.getLsbD 0) none k es
      | _ => none
  | _ => none

/-- The one ticket a RELEASE or QUERY CLAIM carries, not 0 (R23, R25). -/
def ticketArg (payload : List Byte) : Option Byte :=
  match payload with
  | [t] => if t = 0#8 then none else some t
  | _ => none

/-- A heartbeat period of 1 to 1000 in two bytes (R95, R98). -/
def periodArg (payload : List Byte) : Option Nat :=
  match payload with
  | [hi, lo] => let p := (u16Of hi lo).toNat; if 1 ≤ p ∧ p ≤ 1000 then some p else none
  | _ => none

/-- SET LEVELS (R84): ticket, position set, level set. -/
structure LevelArgs where
  ticket : Byte
  positions : Byte
  levels : Byte
deriving DecidableEq, Repr

/-- The payload of SET LEVELS as check 1 of R83 reads it: three bytes, a ticket other than 0, a position set that is not empty
(R84). -/
def levelArgs (payload : List Byte) : Option LevelArgs :=
  match payload with
  | [t, ps, ls] => if t = 0#8 ∨ ps = 0#8 then none else some { ticket := t, positions := ps, levels := ls }
  | _ => none

/-- The pairs of a RECONFIGURE: a position byte and a setting byte. -/
def bytePairs : List Byte → Option (List (Byte × Byte))
  | [] => some []
  | [_] => none
  | a :: b :: rest => (bytePairs rest).map fun ps => (a, b) :: ps

/-- The payload of RECONFIGURE as check 1 of R83 reads it: ticket, count 1 to 8, length 2 + 2j (R85). -/
def reconfigureArgs (payload : List Byte) : Option (Byte × List (Byte × Byte)) :=
  match payload with
  | t :: j :: rest =>
    if t = 0#8 ∨ j.toNat = 0 ∨ 8 < j.toNat ∨ rest.length ≠ 2 * j.toNat then none
    else (bytePairs rest).map fun ps => (t, ps)
  | _ => none

/-- The settings a RECONFIGURE gives by position, as check 3 of R83 reads them for a record of `count` lines: every
position below the count, none named twice, no mode code above 4 (R85). -/
def namedSettings (count : Nat) (ps : List (Byte × Byte)) : Option (List (Nat × Setting)) :=
  if (ps.map fun p => p.1).Nodup then
    ps.mapM fun p => if p.1.toNat < count then (Setting.ofByte p.2).map fun st => (p.1.toNat, st) else none
  else none

/-- The payload of CLEAR FAULT as check 1 of R83 reads it: a ticket, or a ticket and a position set that is not empty
(R86). -/
def clearFaultArgs (payload : List Byte) : Option (Byte × Option Byte) :=
  match payload with
  | [t] => if t = 0#8 then none else some (t, none)
  | [t, ps] => if t = 0#8 ∨ ps = 0#8 then none else some (t, some ps)
  | _ => none

/-- Whether every position of a set lies below the record's line count (R83, check 3). -/
def positionsBelow (ps : Byte) (count : Nat) : Bool :=
  decide (ps.toNat < 2 ^ count)

/-- The line a QUERY LINE names, below 48 (R88). -/
def lineArg (payload : List Byte) : Option LineId :=
  match payload with
  | [l] => if h : l.toNat < 48 then some ⟨l.toNat, h⟩ else none
  | _ => none

/-- The section a READ PROFILE names, 0 to 2 (R131). -/
def sectionArg (payload : List Byte) : Option Nat :=
  match payload with
  | [x] => if x.toNat ≤ 2 then some x.toNat else none
  | _ => none

/-- A line's setting byte in the profile: mask in bits 3 to 0, rest-state code in bits 6 to 4, bit 7 ignored (R125). -/
def LineProfile.ofByte (b : Byte) : Option LineProfile :=
  (Rest.ofCode (b.extractLsb' 4 3).toNat).map fun r => { mask := b.extractLsb' 0 4, rest := r }

/-- The byte that reports a line's profile, bit 7 as 0 (R131). -/
def LineProfile.byte (p : LineProfile) : Byte :=
  p.mask.setWidth 8 ||| (p.rest.code <<< 4)

/-- The entries of a SET LINE PROFILE, two bytes each (R125). -/
def profileEntries : List Byte → Option (List (LineId × LineProfile))
  | [] => some []
  | [_] => none
  | l :: b :: rest =>
    if h : l.toNat < 48 then
      match LineProfile.ofByte b, profileEntries rest with
      | some p, some es => some ((⟨l.toNat, h⟩, p) :: es)
      | _, _ => none
    else none

/-- The payload of SET LINE PROFILE (R125): count 1 to 8, length 1 + 2k, no line twice. -/
def lineProfileArgs (payload : List Byte) : Option (List (LineId × LineProfile)) :=
  match payload with
  | k :: rest =>
    if k.toNat = 0 ∨ 8 < k.toNat ∨ rest.length ≠ 2 * k.toNat then none
    else
      match profileEntries rest with
      | none => none
      | some es => if (es.map fun e => e.1).Nodup then some es else none
  | _ => none

/-- The payload of SET BOND (R128): a group 0 to 11 and a value 0 or 1. -/
def bondArgs (payload : List Byte) : Option (GroupId × Bool) :=
  match payload with
  | [g, v] => if h : g.toNat < 12 then (if v.toNat ≤ 1 then some (⟨g.toNat, h⟩, decide (v.toNat = 1)) else none) else none
  | _ => none

/-- What a SET HOST PROFILE sets (R129). -/
structure HostArgs where
  host : HostId
  priority : Fin 4
  quota : Nat
  admin : Bool
deriving DecidableEq, Repr

/-- The payload of SET HOST PROFILE (R129): host 0 to 3, priority 0 to 3, quota 1 to 32, admin value 0 or 1. -/
def hostArgs (payload : List Byte) : Option HostArgs :=
  match payload with
  | [h, p, q, a] =>
    if hh : h.toNat < 4 then
      if hp : p.toNat < 4 then
        if 1 ≤ q.toNat ∧ q.toNat ≤ 32 ∧ a.toNat ≤ 1 then
          some { host := ⟨h.toNat, hh⟩, priority := ⟨p.toNat, hp⟩, quota := q.toNat, admin := decide (a.toNat = 1) }
        else none
      else none
    else none
  | _ => none

/-- What a SET TIMING sets (R147). -/
structure TimingArgs where
  settle : Nat
  yieldWindow : Nat
  voteWindow : Nat
deriving DecidableEq, Repr

/-- The payload of SET TIMING (R147): settle 0 to 255, yield window 1 to 1000 in two bytes, vote window 1 to 100. -/
def timingArgs (payload : List Byte) : Option TimingArgs :=
  match payload with
  | [st, hi, lo, v] =>
    let y := (u16Of hi lo).toNat
    if 1 ≤ y ∧ y ≤ 1000 ∧ 1 ≤ v.toNat ∧ v.toNat ≤ 100 then
      some { settle := st.toNat, yieldWindow := y, voteWindow := v.toNat }
    else none
  | _ => none

end Sys2Proof.Machine
end

