-- ==== Sys2Proof/Machine/Ops.lean ====
section
/-! DEFINITION. The operations the commands share: time, boards, ports, sessions, admission, line cells, and the choice
among links. -/

namespace Sys2Proof.Machine

/-! ## Time -/

/-- `dt` microseconds pass (R139, log 1). -/
def State.elapse (s : State) (dt : Nat) : State :=
  { s with now := s.now + dt }

/-- The moment `t` arrives; a moment already past leaves the time as it is (R140, log 2). -/
def State.reach (s : State) (t : Nat) : State :=
  { s with now := max s.now t }

/-- The time left to a deadline that a report gives, in the deadline's unit, rounded down (R26, R103, R131, R146); `span` is the
interval the deadline was set by, in the same unit. DESIGN CHOICE, log 23 (unsafe): a report taken before any microsecond has
passed gives the interval less one, the top of the ranges of R26 and R146, where R26's words would give the whole interval. -/
def unitsLeft (now deadline unit span : Nat) : Nat :=
  min ((deadline - now) / unit) (span - 1)

/-! ## Notice boards -/

/-- A board is empty when it has no ticket notice, all three line sets are empty and every flag is clear (R106). -/
def Board.isEmpty (b : Board) : Bool :=
  b.notices.isEmpty && b.change == 0#48 && b.overrun == 0#48 && b.fault == 0#48 && b.flags == SessionFlags.clear

/-- Put host `h`'s board in place; its ATTN is asserted exactly while it is not empty (R114). -/
def State.putBoard (s : State) (h : HostId) (b : Board) : State :=
  { s with boards := s.boards.set h { b with attn := !b.isEmpty } }

/-- Change host `h`'s board. -/
def State.editBoard (s : State) (h : HostId) (f : Board → Board) : State :=
  s.putBoard h (f (s.boards.get h))

/-- A ticket's notice placed in ascending ticket order, replacing the one it has (R107). -/
def postNotice (t : Byte) (k : NoticeKind) : List (Byte × NoticeKind) → List (Byte × NoticeKind)
  | [] => [(t, k)]
  | (u, j) :: rest =>
    if t.toNat < u.toNat then (t, k) :: (u, j) :: rest
    else if t = u then (t, k) :: rest
    else (u, j) :: postNotice t k rest

/-- Post a ticket notice (R107). -/
def Board.post (b : Board) (t : Byte) (k : NoticeKind) : Board :=
  { b with notices := postNotice t k b.notices }

/-- Remove the notice for a ticket, if one is pending (R8). -/
def Board.unpost (b : Board) (t : Byte) : Board :=
  { b with notices := b.notices.filter fun x => x.1 != t }

/-- Clear the change, overrun and fault flags of a set of lines (R7, step 4). -/
def Board.clearLines (b : Board) (ls : LineSet) : Board :=
  { b with change := b.change &&& ~~~ls, overrun := b.overrun &&& ~~~ls, fault := b.fault &&& ~~~ls }

/-- Post a ticket notice to host `h`'s board. -/
def State.post (s : State) (h : HostId) (t : Byte) (k : NoticeKind) : State :=
  s.editBoard h fun b => b.post t k

/-- Clear host `h`'s board whole (R113). -/
def State.clearBoard (s : State) (h : HostId) : State :=
  s.putBoard h Board.empty

/-- Set session flags on host `h`'s board (R112). -/
def State.flag (s : State) (h : HostId) (f : SessionFlags → SessionFlags) : State :=
  s.editBoard h fun b => { b with flags := f b.flags }

/-- Apply an operation for each host of a set, H0 first. -/
def State.forHosts (s : State) (w : HostSet) (f : State → HostId → State) : State :=
  (List.finRange 4).foldl (fun t h => if has w h then f t h else t) s

/-! ## Link ports -/

/-- An answer to a request: a status code and a payload. -/
structure Answer where
  status : Status
  payload : List Byte
deriving DecidableEq, Repr

/-- An answer with an empty payload. -/
def bare (st : Status) : Answer := { status := st, payload := [] }

/-- A response for a new request is posted to a port (R156): response buffer, replay mark, link state, saved response and
signature. -/
def Port.answer (p : Port) (seq : Byte) (sig : Option Signature) (a : Answer) : Port :=
  { p with
    link := .answered, request := none, replay := false, signature := sig
    response := some { status := a.status, seq := seq, payload := a.payload }
    saved := some { status := a.status, seq := seq, payload := a.payload } }

/-- The signature of a request in hand (R155). -/
def Request.signature (q : Request) : Signature :=
  { kind := q.kind.code, epoch := q.epoch, seq := q.seq, crc := q.crc }

/-- Put port `n` in place. -/
def State.putPort (s : State) (n : HostId) (p : Port) : State :=
  { s with ports := s.ports.set n p }

/-- The answer to port `n`'s request `q` is posted to it (R156). -/
def State.reply (s : State) (n : HostId) (q : Request) (a : Answer) : State :=
  s.putPort n ((s.ports.get n).answer q.seq (some q.signature) a)

/-- The bytes of a response frame (R157): status, sequence echo, length, payload, CRC-8. -/
def Response.bytes (r : Response) : List Byte :=
  let covered := r.status.code :: r.seq :: natByte r.payload.length :: r.payload
  covered ++ [crc8 covered]

/-- The request port `n` has in hand while PENDING. -/
def State.inHand (s : State) (n : HostId) : Option Request :=
  if (s.ports.get n).link = .pending then (s.ports.get n).request else none

/-! ## Sessions and admission -/

/-- Put host `h`'s session context in place. -/
def State.putSession (s : State) (h : HostId) (c : Session) : State :=
  { s with sessions := s.sessions.set h c }

/-- Whether a kind is allowed in a session state (R92). -/
def allowedIn (st : SessState) (k : Kind) : Bool :=
  match st with
  | .attached => true
  | .detached => k == .attach || k == .status
  | .lapsed => k == .attach || k == .status || k == .fetchNotices || k == .detach

/-- The admission of a request by the Session Unit (R92): the status that refuses it, or none. -/
def admission (c : Session) (k : Kind) (epoch : BitVec 16) : Option Status :=
  if allowedIn c.state k then
    if k = .attach ∨ k = .status ∨ epoch = c.epoch then none else some .staleEpoch
  else some (if c.state = .detached then .notAttached else .lapsed)

/-- The recheck an owning block makes when it takes a request (R94): the status that answers it, or none. -/
def recheck (c : Session) (k : Kind) (epoch : BitVec 16) : Option Status :=
  match c.state with
  | .attached => if epoch = c.epoch then none else some .staleEpoch
  | .lapsed => if epoch = c.epoch ∧ k = .fetchNotices then none else some .lapsed
  | .detached => some .notAttached

/-- The heartbeat deadline one period after now (R93, R144). -/
def State.heartbeatEnd (s : State) (period : Nat) : Nat :=
  s.now + period * Config.heartbeatUnit

/-- A request admitted while ATTACHED sets the deadline one period after the admission (R93). -/
def State.refresh (s : State) (h : HostId) : State :=
  let c := s.sessions.get h
  if c.state = .attached then s.putSession h { c with deadline := some (s.heartbeatEnd c.period) } else s

/-- One more than an epoch, with 65535 followed by 1 (R91). -/
def nextEpoch (e : BitVec 16) : BitVec 16 :=
  if e = 0xFFFF#16 then 1#16 else e + 1#16

/-- The hosts whose sessions are ATTACHED. -/
def State.attachedSet (s : State) : HostSet :=
  bitsWhere fun h => (s.sessions.get h).state == .attached

/-! ## Line cells -/

/-- What a line setting does at the pin (R71). -/
def presentedOf (st : Setting) : Presented :=
  match st.mode with
  | .input => .float
  | .inputPullup => .weakPullUp
  | .inputPulldown => .weakPullDown
  | .openDrain => if st.level then .float else .driveLow
  | .pushPull => if st.level then .driveHigh else .driveLow

/-- The level a checked setting drives; absent for a setting that is not checked (R71, R79). -/
def drivenLevel (st : Setting) : Option Bool :=
  match st.mode with
  | .pushPull => some st.level
  | .openDrain => if st.level then none else some false
  | _ => none

/-- The effective level: the level for OPEN_DRAIN and PUSH_PULL, nothing for an input mode (R85). -/
def effectiveLevel (st : Setting) : Option Bool :=
  match st.mode with
  | .openDrain | .pushPull => some st.level
  | _ => none

/-- Whether a mode is one of the three input modes (R83, check 5). -/
def isInputMode : Mode → Bool
  | .input | .inputPullup | .inputPulldown => true
  | .openDrain | .pushPull => false

/-- What a rest state does at the pin (R72). -/
def restPresented : Rest → Presented
  | .float => .float
  | .pullUp => .weakPullUp
  | .pullDown => .weakPullDown
  | .driveLow => .driveLow
  | .driveHigh => .driveHigh

/-- The setting of a HELD or YIELDING holder (R69: "present while the holder is HELD or YIELDING"). -/
def Cell.claimed (c : Cell) : Option Setting :=
  match c.holder with
  | some h => if h.state = .held ∨ h.state = .yielding then c.applied else none
  | none => none

/-- What a cell presents while RESETn is high (R70), given the line's rest state. -/
def Cell.shown (c : Cell) (rest : Rest) : Presented :=
  match c.claimed with
  | some st => if c.parked then restPresented rest else presentedOf st
  | none => restPresented rest

/-- The cell presents what R70 gives for its inputs. -/
def Cell.present (c : Cell) (rest : Rest) : Cell :=
  { c with presented := c.shown rest }

/-- The rest state of a line in the profile. -/
def State.restOf (s : State) (l : LineId) : Rest :=
  (s.profile.lines.get l).rest

/-- Change the cells, line by line. -/
def State.mapCells (s : State) (f : LineId → Cell → Cell) : State :=
  { s with cells := Table.ofFn fun l => f l (s.cells.get l) }

/-- Blanking starts, or starts again, with its end 16 µs ahead (R79). -/
def Cell.blank (c : Cell) (now : Nat) : Cell :=
  { c with blanking := some (now + Config.blankingTime) }

/-- Report: the holder is a record in SETTLING (R73). -/
def Cell.settle (c : Cell) (h : Holder) : Cell :=
  { c with holder := some { h with state := .settling }, applied := none }

/-- Report: the holder enters HELD (R73): its entry becomes the applied setting, and blanking and the watch start. -/
def Cell.hold (c : Cell) (h : Holder) (st : Setting) (now : Nat) : Cell :=
  { c with holder := some { h with state := .held }, applied := some st, parked := false }.blank now

/-- Report: the holder passes between HELD and YIELDING (R73). -/
def Cell.pass (c : Cell) (st : RecState) : Cell :=
  { c with holder := c.holder.map fun h => { h with state := st } }

/-- Report: no holder (R73): holder, applied setting and parked flag are cleared, and blanking stops. -/
def Cell.release (c : Cell) : Cell :=
  { c with holder := none, applied := none, parked := false, blanking := none }

/-- The filter length N (R75). -/
def Cell.filterLength (c : Cell) : Nat :=
  match c.claimed with
  | some st => 2 ^ st.filter.val
  | none => 2

/-! ## Records and their lines -/

/-- Whether a record names a line. -/
def Record.names (r : Record) (l : LineId) : Bool :=
  r.lines.any fun e => e.line == l

/-- Whether a record is live-holding (R5). -/
def Record.live (r : Record) : Bool :=
  r.state != .waiting

/-- The setting a record's entry gives for a line. -/
def Record.settingOf (r : Record) (l : LineId) : Option Setting :=
  (r.lines.find? fun e => e.line == l).map fun e => e.setting

/-- The lines a record names. -/
def Record.lineSet (r : Record) : LineSet :=
  bitsWhere fun l => r.names l

/-- The record in slot `i` as its cells know it. -/
def Record.holder (r : Record) (i : SlotId) : Holder :=
  { slot := i, owner := r.owner, ticket := r.ticket, state := r.state }

/-- The CTC reports record `r` of slot `i` in SETTLING to the cells of its lines (R73). -/
def State.reportSettling (s : State) (i : SlotId) (r : Record) : State :=
  s.mapCells fun l c => if r.names l then (c.settle (r.holder i)).present (s.restOf l) else c

/-- The CTC reports that record `r` of slot `i` enters HELD (R73). -/
def State.reportHeld (s : State) (i : SlotId) (r : Record) : State :=
  s.mapCells fun l c =>
    match r.settingOf l with
    | some st => (c.hold (r.holder i) st s.now).present (s.restOf l)
    | none => c

/-- The CTC reports that the holder `r` passes between HELD and YIELDING (R73). -/
def State.reportPass (s : State) (r : Record) (st : RecState) : State :=
  s.mapCells fun l c => if r.names l then (c.pass st).present (s.restOf l) else c

/-- The CTC reports that the lines of `r` have no holder (R73). -/
def State.reportFree (s : State) (r : Record) : State :=
  s.mapCells fun l c => if r.names l then c.release.present (s.restOf l) else c

/-! ## The choice among links -/

/-- The first presenting link after the last one served, in the order LP0, LP1, LP2, LP3, LP0 (R12, R83, R123). -/
def nextLink (last : HostId) (presents : HostId → Bool) : Option HostId :=
  [last + 1, last + 2, last + 3, last].find? presents

/-- Whether port `n` presents a request to the block `o` (R12). -/
def State.presents (s : State) (o : Owner) (n : HostId) : Bool :=
  match s.inHand n with
  | some q => q.kind.owner == o
  | none => false

/-- The link a block served last. The Session Unit and the Notice Board keep none: each host's requests reach that
host's own context and board (R90, R115). -/
def State.lastServed (s : State) (o : Owner) : HostId :=
  match o with
  | .claimTable => s.ctcLast
  | .lineCells => s.lcaLast
  | .profileUnit => s.puLast
  | .sessionUnit | .noticeBoard => 3

/-- Port `n` becomes the link a block served last. -/
def State.serve (s : State) (o : Owner) (n : HostId) : State :=
  match o with
  | .claimTable => { s with ctcLast := n }
  | .lineCells => { s with lcaLast := n }
  | .profileUnit => { s with puLast := n }
  | .sessionUnit | .noticeBoard => s

/-- The link a block takes its next request from. -/
def State.chosen (s : State) (o : Owner) : Option HostId :=
  nextLink (s.lastServed o) (s.presents o)

/-- A block takes port `n`'s request `q`: the recheck of R94, then the handling `f`, then the response. -/
def State.take (s : State) (n : HostId) (q : Request) (f : State → HostId → Request → State × Answer) : State :=
  match recheck (s.sessions.get n) q.kind q.epoch with
  | some st => s.reply n q (bare st)
  | none => (f s n q).1.reply n q (f s n q).2

/-- A block takes the request of kind `k` that its arbiter chooses. Where RESETn is low, no link presents one, or the one
chosen is of another kind, this step takes nothing (log 5, 6). -/
def State.takeChosen (s : State) (k : Kind) (f : State → HostId → Request → State × Answer) : State :=
  if s.resetn then
    match s.chosen k.owner with
    | some n =>
      match s.inHand n with
      | some q => if q.kind = k then (s.serve k.owner n).take n q f else s
      | none => s
    | none => s
  else s

/-- The Notice Board takes port `n`'s request of kind `k`: boards are independent, and no order is given between fetches
(R115). -/
def State.takeAt (s : State) (n : HostId) (k : Kind) (f : State → HostId → Request → State × Answer) : State :=
  if s.resetn then
    match s.inHand n with
    | some q => if q.kind = k then s.take n q f else s
    | none => s
  else s

/-- The Session Unit admits port `n`'s request of kind `k`, refreshes the heartbeat, handles it by `f` and posts the
response, all in one event (R92, R93, R94). `f` is given the state after the refresh and the context before it. -/
def State.takeSession (s : State) (n : HostId) (k : Kind)
    (f : State → HostId → Request → Session → State × Answer) : State :=
  if s.resetn then
    match s.inHand n with
    | some q =>
      if q.kind = k then
        match admission (s.sessions.get n) k q.epoch with
        | some st => s.reply n q (bare st)
        | none =>
          (f (s.refresh n) n q (s.sessions.get n)).1.reply n q (f (s.refresh n) n q (s.sessions.get n)).2
      else s
    | none => s
  else s

end Sys2Proof.Machine
end

