-- ==== Sys2Proof/Machine/Flags.lean ====
section
/-! DEFINITION. The flag bytes of the links: the link status byte, and the flag fields of response payloads (R157, R161). -/

namespace Sys2Proof.Machine

/-- A bit as a byte with bit `i` set or not. -/
def flagBit (b : Bool) (i : Nat) : Byte :=
  if b then 1#8 <<< i else 0#8

/-- The link status byte (R157): READY, PENDING, DROPPED, REPLAY, ATTN, and 0 in bits 7 to 5. -/
def statusByte (p : Port) (b : Board) : Byte :=
  flagBit (p.link == .answered) 0 ||| flagBit (p.link == .pending) 1 ||| flagBit p.dropped 2
    ||| flagBit (p.link == .answered && p.replay) 3 ||| flagBit (!b.isEmpty) 4

/-- The session flags of a fetch response (R161). -/
def SessionFlags.byte (f : SessionFlags) : Byte :=
  flagBit f.lapsedHeartbeat 0 ||| flagBit f.lapsedCleared 1 ||| flagBit f.voteOpen 2 ||| flagBit f.profileOpened 3
    ||| flagBit f.voteFailed 4

/-- Bit 0 profile COMMITTED and bit 1 vote running (R161). -/
def profileFlags (s : State) : Byte :=
  flagBit (s.profile.state == .committed) 0 ||| flagBit s.vote.running 1

/-- The required set in bits 3 to 0 and the voted set in bits 7 to 4 (R161). -/
def voteSetsByte (s : State) : Byte :=
  s.vote.voted ++ s.vote.required

end Sys2Proof.Machine
end

