-- ==== Sys2Proof/Machine/Claims.lean ====
section
/-! DEFINITION. The operations of the Claim Table Controller: the table and its views, granting, eligibility, freeing
(chapters 1 to 3). -/

namespace Sys2Proof.Machine

/-- The claim table: 32 slots, each FREE or a record (R1). -/
abbrev Slots := Table 32 (Option Record)

/-! ## Views of the table -/

/-- The non-FREE records with their slots, in slot order. -/
def recordsOf (t : Slots) : List (SlotId × Record) :=
  (List.finRange 32).filterMap fun i => (t.get i).map fun r => (i, r)

/-- Whether `a` stands before `b` in the waiting order: higher priority, or equal priority and earlier entry (R27). -/
def ahead (a b : SlotId × Record) : Bool :=
  decide (b.2.priority < a.2.priority) || (a.2.priority == b.2.priority && decide (a.2.entry < b.2.entry))

/-- The waiting order: every WAITING record (R27). -/
def waitingOrder (t : Slots) : List (SlotId × Record) :=
  sortBy ahead ((recordsOf t).filter fun x => x.2.state == .waiting)

/-- The wait queue of a line, head first: the waiting order restricted to the records that name it (R28). -/
def queueOf (t : Slots) (l : LineId) : List (SlotId × Record) :=
  (waitingOrder t).filter fun x => x.2.names l

/-- The slot at the head of a line's queue (R29). -/
def headOf (t : Slots) (l : LineId) : Option SlotId :=
  (queueOf t l).head?.map fun x => x.1

/-- The holder of a line: the record in SETTLING, HELD or YIELDING that names it (R30). -/
def holderOf (t : Slots) (l : LineId) : Option (SlotId × Record) :=
  (recordsOf t).find? fun x => x.2.live && x.2.names l

/-- How many records stand ahead of slot `i` in a line's queue (R29). -/
def aheadIn (t : Slots) (i : SlotId) (l : LineId) : Nat :=
  ((queueOf t l).takeWhile fun x => x.1 != i).length

/-- The queue position of a record: 1 plus the greatest number of records ahead of it in any of its queues (R22, R29). -/
def positionOf (t : Slots) (i : SlotId) (r : Record) : Nat :=
  1 + (r.lines.map fun e => aheadIn t i e.line).foldl max 0

/-- Whether a WAITING record is grantable (R31): none of its lines has a holder, and it heads every queue. -/
def grantable (t : Slots) (i : SlotId) (r : Record) : Bool :=
  r.lines.all fun e => (holderOf t e.line).isNone && headOf t e.line == some i

/-- Whether an arriving claim is grantable (R32): no line has a holder, and no WAITING record of equal or higher priority
names one. -/
def arrivalGrantable (t : Slots) (priority : Fin 4) (entries : List LineEntry) : Bool :=
  entries.all fun e =>
    (holderOf t e.line).isNone
      && (waitingOrder t).all fun x => !(decide (priority ≤ x.2.priority) && x.2.names e.line)

/-- Whether the record of slot `i` is an eligible preemptor (R50). -/
def isEligible (t : Slots) (i : SlotId) (r : Record) : Bool :=
  r.state == .waiting && r.preempt && r.lines.all fun e =>
    headOf t e.line == some i
      && (recordsOf t).all fun x => !(x.2.live && x.2.names e.line) || decide (x.2.priority < r.priority)

/-- The set of eligible preemptors, ascending by slot (R50). -/
def eligibleSet (t : Slots) : List SlotId :=
  (List.finRange 32).filter fun i =>
    match t.get i with
    | some r => isEligible t i r
    | none => false

/-- Whether a record names a line of some record in the set `el` (R51). -/
def demanded (t : Slots) (el : List SlotId) (r : Record) : Bool :=
  el.any fun j =>
    match t.get j with
    | some w => r.lines.any fun e => w.names e.line
    | none => false

/-- The lowest-numbered FREE slot (R1). -/
def freeSlot (t : Slots) : Option SlotId :=
  (List.finRange 32).find? fun i => (t.get i).isNone

/-- The number of FREE slots (R1). -/
def freeCount (t : Slots) : Nat :=
  (List.finRange 32).countP fun i => (t.get i).isNone

/-- An entry number greater than that of every record in the table (R14, log 15). -/
def nextEntry (t : Slots) : Nat :=
  1 + ((recordsOf t).map fun x => x.2.entry).foldl max 0

/-- A host's count of non-FREE records (R10). -/
def recordCount (t : Slots) (h : HostId) : Nat :=
  (recordsOf t).countP fun x => x.2.owner == h

/-- The record of a host under a ticket (R1: "by the pair (owner, ticket)"). -/
def findTicket (t : Slots) (h : HostId) (tk : Byte) : Option (SlotId × Record) :=
  (recordsOf t).find? fun x => x.2.owner == h && x.2.ticket == tk

/-- The slots of the records that satisfy `p`, ascending. -/
def slotsWhere (t : Slots) (p : Record → Bool) : List SlotId :=
  ((recordsOf t).filter fun x => p x.2).map fun x => x.1

/-- A host's orphan notices: its ticket notices whose ticket has no non-FREE record (R11). -/
def orphanCount (t : Slots) (h : HostId) (b : Board) : Nat :=
  b.notices.countP fun x => (findTicket t h x.1).isNone

/-! ## Changes of one record -/

/-- A record in HELD, with no deadline (R4). -/
def Record.asHeld (r : Record) : Record :=
  { r with state := .held, deadline := none, span := 0 }

/-- A record in SETTLING from `now` on, its settle end one settle time ahead (R4, R143). -/
def Record.asSettling (r : Record) (now settle : Nat) : Record :=
  { r with state := .settling, deadline := some (now + settle * Config.settleUnit), span := settle }

/-- A record in YIELDING from `now` on, its yield end one yield window ahead (R4, R143). -/
def Record.asYielding (r : Record) (now window : Nat) : Record :=
  { r with state := .yielding, deadline := some (now + window * Config.yieldUnit), span := window }

/-- Put a record in slot `i`. -/
def State.putRecord (s : State) (i : SlotId) (r : Record) : State :=
  { s with slots := s.slots.set i (some r) }

/-- Record `r` is granted into slot `i` (R35, R43, R44): SETTLING with its settle end set, or HELD where the settle time is
0; its wait end, if any, is discarded, and the cells are told. -/
def State.grantInto (s : State) (i : SlotId) (r : Record) : State :=
  if s.profile.settle = 0 then
    (s.putRecord i r.asHeld).reportHeld i r.asHeld
  else
    (s.putRecord i (r.asSettling s.now s.profile.settle)).reportSettling i (r.asSettling s.now s.profile.settle)

/-- The CTC grants the WAITING record `r` of slot `i` during a walk; entry to HELD posts GRANTED (R35). -/
def State.grant (s : State) (i : SlotId) (r : Record) : State :=
  if s.profile.settle = 0 then (s.grantInto i r).post r.owner r.ticket .granted else s.grantInto i r

/-- The record of slot `i` enters YIELDING (R53): its yield end is one yield window ahead, and REVOKE_NOTICE is posted. -/
def State.enterYielding (s : State) (i : SlotId) (r : Record) : State :=
  ((s.putRecord i (r.asYielding s.now s.profile.yieldWindow)).reportPass r .yielding).post r.owner r.ticket .revokeNotice

/-- The record of slot `i` returns from YIELDING to HELD (R56): its yield end is discarded, and REVOKE_WITHDRAWN is
posted. -/
def State.returnHeld (s : State) (i : SlotId) (r : Record) : State :=
  ((s.putRecord i r.asHeld).reportPass r .held).post r.owner r.ticket .revokeWithdrawn

/-- The record of slot `i` enters HELD from SETTLING (R45): its settle end is discarded and the cells apply its settings. -/
def State.enterHeld (s : State) (i : SlotId) (r : Record) : State :=
  (s.putRecord i r.asHeld).reportHeld i r.asHeld

/-! ## The evaluations -/

/-- One step of the walk (R34): slot `i`'s record is granted if it is WAITING and grantable in the table as it stands. -/
def State.tryGrant (s : State) (i : SlotId) : State :=
  match s.slots.get i with
  | some r => if r.state = .waiting ∧ grantable s.slots i r = true then s.grant i r else s
  | none => s

/-- Grant evaluation: the walk over the waiting order as it stands when the evaluation starts (R34). -/
def State.grantWalk (s : State) : State :=
  ((waitingOrder s.slots).map fun x => x.1).foldl State.tryGrant s

/-- The test eligibility evaluation makes of slot `i`'s record against the set of eligible preemptors (R51). -/
def State.applyDemand (s : State) (i : SlotId) : State :=
  match s.slots.get i with
  | some r =>
    if r.state = .held ∧ demanded s.slots s.eligible r = true then s.enterYielding i r
    else if r.state = .yielding ∧ demanded s.slots s.eligible r = false then s.returnHeld i r
    else s
  | none => s

/-- The live-holding records in entry order (R52). -/
def holdersInEntryOrder (t : Slots) : List SlotId :=
  (sortBy (fun a b => decide (a.2.entry < b.2.entry)) ((recordsOf t).filter fun x => x.2.live)).map fun x => x.1

/-- Eligibility evaluation (R51, R52): the set is computed once and applied to every live-holding record in one pass. -/
def State.eligibility (s : State) : State :=
  (holdersInEntryOrder s.slots).foldl State.applyDemand { s with eligible := eligibleSet s.slots }

/-- Grant evaluation, then eligibility evaluation (R37). -/
def State.evaluate (s : State) : State :=
  s.grantWalk.eligibility

/-! ## Freeing -/

/-- What a freeing leaves on the owner's board for the record's ticket (R8). -/
def Board.afterFreeing (b : Board) (cause : FreeCause) (t : Byte) : Board :=
  match cause with
  | .released => b.unpost t
  | .waitExpired => b.post t .waitExpired
  | .denied => b.post t .denied
  | .revoked => b.post t .revoked
  | .sessionEnd | .clearAll => b

/-- Steps 1 to 6 of R7 for the record of slot `i`: deadline and queues with the record, lines to rest, the owner's line
flags, the ticket notice of R8, the slot FREE. -/
def State.free (s : State) (i : SlotId) (cause : FreeCause) : State :=
  match s.slots.get i with
  | none => s
  | some r =>
    let atRest := if r.live then s.reportFree r else s
    let told := atRest.editBoard r.owner fun b => (b.clearLines r.lineSet).afterFreeing cause r.ticket
    { told with slots := told.slots.set i none }

/-- Steps 1 to 6 of R7 for each slot of a list. -/
def State.freeEach (s : State) (slots : List SlotId) (cause : FreeCause) : State :=
  slots.foldl (fun t i => t.free i cause) s

/-- Free the records of a list of slots, then evaluate once (R7). -/
def State.freeAll (s : State) (slots : List SlotId) (cause : FreeCause) : State :=
  (s.freeEach slots cause).evaluate

/-- A host's session has ended: every record of the host is freed with no ticket notice (R9). -/
def State.freeHost (s : State) (h : HostId) : State :=
  s.freeAll (slotsWhere s.slots fun r => r.owner == h) .sessionEnd

end Sys2Proof.Machine
end

