-- ==== Sys2Proof/Machine/Votes.lean ====
section
/-! DEFINITION. The operations of the reopen vote (7.8). -/

namespace Sys2Proof.Machine

/-- Set or clear a session's vote flag (R133). -/
def State.setVoted (s : State) (h : HostId) (v : Bool) : State :=
  s.putSession h { s.sessions.get h with voted := v }

/-- The vote ends (R133): its deadline is discarded, its sets are emptied, and the vote flag of every context is cleared. -/
def State.endVote (s : State) : State :=
  { s with
    vote := { running := false, deadline := none, required := 0#4, voted := 0#4 }
    sessions := Table.ofFn fun h => { s.sessions.get h with voted := false } }

/-- The completion test of a running vote (R135). -/
def State.completionTest (s : State) : State :=
  if s.vote.running then
    if s.vote.required = 0#4 then s.endVote
    else if s.vote.voted = s.vote.required then
      { s.endVote with profile := { s.profile with state := .opened } }.forHosts s.attachedSet fun t h =>
        t.flag h fun f => { f with profileOpened := true }
    else s
  else s

/-- VOTE_OPEN is posted to a host (R112). -/
def State.postVoteOpen (s : State) (h : HostId) : State :=
  s.flag h fun f => { f with voteOpen := true }

/-- The Session Unit reports that a host has joined (R97, R135). -/
def State.hostJoined (s : State) (h : HostId) : State :=
  if s.vote.running then
    ({ s with vote := { s.vote with required := s.vote.required ||| bitOf h, voted := s.vote.voted &&& ~~~ bitOf h } }.postVoteOpen
      h).completionTest
  else s

/-- The Session Unit reports that a host has left (R97, R135). -/
def State.hostLeft (s : State) (h : HostId) : State :=
  if s.vote.running then
    { s with vote := { s.vote with
        required := s.vote.required &&& ~~~ bitOf h, voted := s.vote.voted &&& ~~~ bitOf h } }.completionTest
  else s

/-- The Session Unit reports that a host has restarted (R97, R135): it stays in the required set, now unvoted. -/
def State.hostRestarted (s : State) (h : HostId) : State :=
  if s.vote.running then
    ({ s with vote := { s.vote with voted := s.vote.voted &&& ~~~ bitOf h } }.postVoteOpen h).completionTest
  else s

end Sys2Proof.Machine
end

