-- ==== Sys2Proof/Machine/Link.lean ====
section
/-! DEFINITION. The commands of the RESETn pin and of the link ports (R74, R104, chapter 9). -/

namespace Sys2Proof.Machine

/-! ## Reset -/

/-- A cell while RESETn is low (R70, R74): no holder, no park, FLOAT; no sample is taken, so its levels stand (log 10). -/
def Cell.inReset (c : Cell) : Cell :=
  { c with holder := none, applied := none, parked := false, presented := .float, blanking := none }

/-- HARDWARE_RESET: RESETn falls, or power is applied. Every block takes its reset values (R1, R90, R104, R106, R120, R121,
R139, R149), and every line presents FLOAT (R74). -/
def execHardwareReset (dt : Nat) (s : State) : Host.Outcome State Fault Refusal :=
  .next
    { s.elapse dt with
      resetn := false
      ports := Table.fill 4 Port.reset
      sessions := Table.fill 4 Session.reset
      slots := Table.fill 32 none
      eligible := []
      ctcLast := 3
      cells := Table.ofFn fun l => (s.cells.get l).inReset
      lcaLast := 3
      boards := Table.fill 4 Board.empty
      profile := Profile.reset
      vote := Vote.reset
      puLast := 3 }

/-- RESETN_RISE: RESETn rises (R69, R74, R141). Every cell takes its reset values, the first sample sets the raw and
filtered levels, and the sampling tick starts. Where RESETn is already high, nothing rises (log 6). -/
def execResetnRise (dt : Nat) (levels : LineSet) (s : State) : Host.Outcome State Fault Refusal :=
  .next
    (if s.resetn then s.elapse dt
     else
      { s.elapse dt with
        resetn := true
        nextTick := s.now + dt + Config.tickPeriod
        cells := Table.ofFn fun l => Cell.reset (has levels l) })

/-! ## Transactions -/

/-- SDOn held at 1 for `k` bits (R150). -/
def ones (k : Nat) : List Bool := List.replicate k true

/-- A write is dropped in PENDING or ANSWERED (R151, R159): DROPPED is set and nothing else changes. -/
def Port.drop (p : Port) (k : Nat) : Port :=
  { p with dropped := true, sdo := ones k }

/-- A frame of a write accepted in IDLE has been received (R151): the port has passed to RECEIVING with an empty buffer and
stored up to 66 bytes. -/
def Port.receive (p : Port) (bits : List Bool) : Port :=
  { p with link := .receiving, buffer := (bytesOf bits).take 66, sdo := ones (8 + bits.length) }

/-- A repeated request (R155): the saved response is posted again and the replay mark set. -/
def Port.replayed (p : Port) (r : Response) : Port :=
  { p with link := .answered, response := some r, replay := true }

/-- The signature of a frame (R155). -/
def frameSignature (f : Frame) : Signature :=
  { kind := f.kind, epoch := f.epoch, seq := f.seq, crc := f.crc }

/-- The request a frame of a known kind makes (R156). -/
def frameRequest (f : Frame) (k : Kind) (admitted : Option SessState) : Request :=
  { kind := k, epoch := f.epoch, seq := f.seq, payload := f.payload, crc := f.crc, admitted := admitted }

/-- The link enters PENDING with a request in hand (R156). -/
def Port.handOn (p : Port) (q : Request) : Port :=
  { p with link := .pending, request := some q }

/-- The Session Unit judges a request handed on (R92). Refused, it is answered at once. Admitted, it goes to its owning
block, and the heartbeat is refreshed (R93); a kind of the Session Unit's own stays there, because the Session Unit
admits it and handles it in one event (R94, log 4). -/
def State.judge (s : State) (n : HostId) (f : Frame) (k : Kind) : State :=
  match admission (s.sessions.get n) k f.epoch with
  | some st => s.reply n (frameRequest f k none) (bare st)
  | none =>
    if k.owner = .sessionUnit then s.putPort n ((s.ports.get n).handOn (frameRequest f k none))
    else
      (s.refresh n).putPort n ((s.ports.get n).handOn (frameRequest f k (some (s.sessions.get n).state)))

/-- A frame that passed the checks of R153: replayed, answered UNKNOWN_KIND, or handed on (R155, R156). -/
def State.acceptFrame (s : State) (n : HostId) (f : Frame) : State :=
  match (s.ports.get n).saved, (s.ports.get n).signature with
  | some r, some sig =>
    if sig = frameSignature f then s.putPort n ((s.ports.get n).replayed r)
    else
      match kindOf f.kind with
      | some k => s.judge n f k
      | none => s.putPort n ((s.ports.get n).answer f.seq (some (frameSignature f)) (bare .unknownKind))
  | _, _ =>
    match kindOf f.kind with
    | some k => s.judge n f k
    | none => s.putPort n ((s.ports.get n).answer f.seq (some (frameSignature f)) (bare .unknownKind))

/-- The frame in port `n`'s buffer is checked at the rise of CSn (R153); a malformed one is answered FRAME_ERROR, saved
with no signature. -/
def State.frameEnd (s : State) (n : HostId) (bits : List Bool) : State :=
  match frameOfBits bits with
  | .bad reason =>
    s.putPort n ((s.ports.get n).answer (errorEcho (bytesOf bits)) none { status := .frameError, payload := [reason] })
  | .good f => s.acceptFrame n f

/-- A write transaction whose opener found RESETn high (R151). -/
def State.write (s : State) (n : HostId) (bits : List Bool) : State :=
  match (s.ports.get n).link with
  | .pending | .answered => s.putPort n ((s.ports.get n).drop (8 + bits.length))
  | .idle | .receiving => (s.putPort n ((s.ports.get n).receive bits)).frameEnd n bits

/-- A transaction that meets RESETn low, or whose CSn fell before RESETn rose: no state of the port changes (R150), and the
model records nothing driven on SDO. What SDO does after the rise of RESETn in what is left of a transaction whose CSn fell before it,
R150 does not say: that nothing is recorded is the model's choice (DESIGN CHOICE, log 14). -/
def State.undriven (s : State) (n : HostId) : State :=
  s.putPort n { s.ports.get n with sdo := [] }

/-- The bytes a read transaction offers: the link status byte, and the response frame while READY (R157). -/
def readStream (p : Port) (b : Board) : List Byte :=
  statusByte p b ::
    (match p.link, p.response with
     | .answered, some r => r.bytes
     | _, _ => [])

/-- What `clocks` clocks shift out of a stream, 1s following it (R157, R158). -/
def shifted (stream : List Byte) (clocks : Nat) : List Bool :=
  (bitsOf stream).take clocks ++ ones (clocks - (bitsOf stream).length)

/-- DROPPED is cleared when the status byte has been shifted out whole (R159). -/
def Port.reported (p : Port) (clocks : Nat) : Port :=
  if 8 ≤ clocks then { p with dropped := false } else p

/-- The response is consumed when the last bit of its CRC byte has been shifted out (R158). -/
def Port.consumed (p : Port) (clocks : Nat) : Port :=
  match p.link, p.response with
  | .answered, some r =>
    if 8 + 8 * r.bytes.length ≤ clocks then { p with link := .idle, response := none, replay := false } else p
  | _, _ => p

/-- A read transaction of `clocks` clocks after its opener (R157 to R159). -/
def State.read (s : State) (n : HostId) (clocks : Nat) : State :=
  let p := s.ports.get n
  s.putPort n
    { (p.reported clocks).consumed clocks with sdo := ones 8 ++ shifted (readStream p (s.boards.get n)) clocks }

/-- A transaction with an unknown opener, or with none complete (R150): no state of the port changes; SDO shifts 1s throughout. -/
def State.ignore (s : State) (n : HostId) (k : Nat) : State :=
  s.putPort n { s.ports.get n with sdo := ones k }

/-- A transaction on port `n`, `bits` being what SDI carried from the fall of CSn on (R150). The first eight bits form the opener,
and the opener decides: 0x3C a write of the bits that follow, 0xC3 a read of as many clocks, any other value, or none complete, a
transaction ignored. One that meets RESETn low, or was begun before RESETn rose, is ignored whatever its opener. -/
def State.transact (s : State) (n : HostId) (early : Bool) (bits : List Bool) : State :=
  if s.resetn && !early then
    match openerOf bits with
    | some op =>
      if op = writeOpener then s.write n (bits.drop 8)
      else if op = readOpener then s.read n (bits.length - 8)
      else s.ignore n bits.length
    | none => s.ignore n bits.length
  else s.undriven n

/-- REQUEST_FRAME (R150 to R156, R92, R93): the transaction whose opener is 0x3C. -/
def execRequestFrame (dt : Nat) (n : HostId) (early : Bool) (bits : List Bool) (s : State) :
    Host.Outcome State Fault Refusal :=
  .next ((s.elapse dt).transact n early (writeOpener ++ bits))

/-- READ_TRANSACTION (R150, R157 to R159): the transaction whose opener is 0xC3. The part reads nothing from SDI after it, so the
bits there are left 0. -/
def execReadTransaction (dt : Nat) (n : HostId) (early : Bool) (clocks : Nat) (s : State) :
    Host.Outcome State Fault Refusal :=
  .next ((s.elapse dt).transact n early (readOpener ++ List.replicate clocks false))

/-- IGNORED_TRANSACTION (R150): a transaction given by all its bits. Its opener decides here too: where the bits hold a known one,
which no well-formed command does, they are the write or the read it opens. The row does not say whether CSn fell in reset or RESETn
fell and rose in between, which changes nothing but what SDO did: a transaction that ends with RESETn high is recorded as 1s for every
bit, and one that ends with it low as nothing driven, whatever RESETn was before (DESIGN CHOICE, log 14). -/
def execIgnoredTransaction (dt : Nat) (n : HostId) (bits : List Bool) (s : State) : Host.Outcome State Fault Refusal :=
  .next ((s.elapse dt).transact n false bits)

end Sys2Proof.Machine
end

