-- ==== Sys2Proof/Machine/SessionUnit.lean ====
section
/-! DEFINITION. The commands of the Session Unit (chapter 5). -/

namespace Sys2Proof.Machine

/-! ## STATUS -/

/-- The time left STATUS reports, in 10 ms units, to the deadline its own refresh replaced, 0 to 999; 0 outside
ATTACHED (R103, R146). -/
def heartbeatLeft (now : Nat) (c : Session) : Nat :=
  match c.state, c.deadline with
  | .attached, some d => unitsLeft now d Config.heartbeatUnit c.period
  | _, _ => 0

/-- The STATUS response payload (R103, R161): host, state, epoch, period, time left, records, board ticket entries, table free
slots, flags. -/
def statusPayload (s : State) (n : HostId) (before : Session) : List Byte :=
  let c := s.sessions.get n
  natByte n.val :: c.state.code :: u16Bytes c.epoch ++ natBytes2 c.period ++ natBytes2 (heartbeatLeft s.now before)
    ++ [natByte (recordCount s.slots n), natByte (s.boards.get n).notices.length, natByte (freeCount s.slots),
        profileFlags s ||| flagBit c.voted 2]

/-- The handling of STATUS (R103). -/
def handleStatus (s : State) (n : HostId) (q : Request) (before : Session) : State × Answer :=
  if q.payload = [] then (s, { status := .ok, payload := statusPayload s n before })
  else (s, bare .badArgument)

/-- STATUS (R103). -/
def execStatus (dt : Nat) (n : HostId) (s : State) : Host.Outcome State Fault Refusal :=
  .next ((s.elapse dt).takeSession n .status handleStatus)

/-! ## ATTACH -/

/-- The context of a session that begins: the next epoch, the period carried, the deadline one period after the admission,
unvoted (R91, R95, R96, R97). -/
def Session.begun (c : Session) (period : Nat) (deadline : Nat) : Session :=
  { state := .attached, epoch := nextEpoch c.epoch, period := period, deadline := some deadline, voted := false }

/-- The response to an accepted ATTACH (R95, R96): the new epoch, the period, the state before. -/
def attachAnswer (s : State) (n : HostId) (period : Nat) (before : SessState) : Answer :=
  { status := .ok, payload := u16Bytes (s.sessions.get n).epoch ++ natBytes2 period ++ [before.code] }

/-- ATTACH from DETACHED or LAPSED (R95): the board is cleared, the session begins, the host joins. -/
def State.beginSession (s : State) (n : HostId) (period : Nat) : State :=
  let cleared := s.clearBoard n
  (cleared.putSession n ((cleared.sessions.get n).begun period (s.heartbeatEnd period))).hostJoined n

/-- ATTACH while ATTACHED, a restart (R96): the old session's records are freed and its board and vote flag cleared, the new
session begins, and the host is reported restarted. -/
def State.restartSession (s : State) (n : HostId) (period : Nat) : State :=
  let ended := ((s.freeHost n).clearBoard n).setVoted n false
  (ended.putSession n ((ended.sessions.get n).begun period (s.heartbeatEnd period))).hostRestarted n

/-- The handling of ATTACH (R95, R96). -/
def handleAttach (s : State) (n : HostId) (q : Request) (before : Session) : State × Answer :=
  match periodArg q.payload with
  | none => (s, bare .badArgument)
  | some p =>
    let t := if before.state = .attached then s.restartSession n p else s.beginSession n p
    (t, attachAnswer t n p before.state)

/-- ATTACH (R95, R96). -/
def execAttach (dt : Nat) (n : HostId) (s : State) : Host.Outcome State Fault Refusal :=
  .next ((s.elapse dt).takeSession n .attach handleAttach)

/-! ## DETACH -/

/-- The context of a session that ends in state `st`: deadline discarded, vote flag cleared, epoch and period kept (R99,
R100, R101). -/
def Session.ended (c : Session) (st : SessState) : Session :=
  { c with state := st, deadline := none, voted := false }

/-- DETACH from ATTACHED (R100). -/
def State.detachAttached (s : State) (n : HostId) : State :=
  (((s.putSession n ((s.sessions.get n).ended .detached)).freeHost n).clearBoard n).hostLeft n

/-- DETACH from LAPSED (R100). -/
def State.detachLapsed (s : State) (n : HostId) : State :=
  (s.putSession n ((s.sessions.get n).ended .detached)).clearBoard n

/-- The handling of DETACH (R100). -/
def handleDetach (s : State) (n : HostId) (q : Request) (before : Session) : State × Answer :=
  if q.payload = [] then
    (if before.state = .attached then s.detachAttached n else s.detachLapsed n,
      { status := .ok, payload := u16Bytes before.epoch })
  else (s, bare .badArgument)

/-- DETACH (R100). -/
def execDetach (dt : Nat) (n : HostId) (s : State) : Host.Outcome State Fault Refusal :=
  .next ((s.elapse dt).takeSession n .detach handleDetach)

/-! ## HEARTBEAT -/

/-- The response to an accepted HEARTBEAT (R98): the epoch and the period. -/
def heartbeatAnswer (epoch : BitVec 16) (period : Nat) : Answer :=
  { status := .ok, payload := u16Bytes epoch ++ natBytes2 period }

/-- The handling of HEARTBEAT (R98): admission has refreshed the deadline; a new period replaces that refresh. -/
def handleHeartbeat (s : State) (n : HostId) (q : Request) (before : Session) : State × Answer :=
  if q.payload = [] then (s, heartbeatAnswer before.epoch before.period)
  else
    match periodArg q.payload with
    | some p =>
      (s.putSession n { s.sessions.get n with period := p, deadline := some (s.heartbeatEnd p) },
        heartbeatAnswer before.epoch p)
    | none => (s, bare .badArgument)

/-- HEARTBEAT (R98). -/
def execHeartbeat (dt : Nat) (n : HostId) (s : State) : Host.Outcome State Fault Refusal :=
  .next ((s.elapse dt).takeSession n .heartbeat handleHeartbeat)

/-! ## Heartbeat expiry -/

/-- The session of host `h` lapses on its heartbeat (R99). -/
def State.lapse (s : State) (h : HostId) : State :=
  ((((s.putSession h ((s.sessions.get h).ended .lapsed)).freeHost h).clearBoard h).flag h fun f =>
    { f with lapsedHeartbeat := true }).hostLeft h

/-- HEARTBEAT_EXPIRY (R99): the deadline of an ATTACHED session arrives. Where no deadline is held, none arrives (R140,
log 6). -/
def execHeartbeatExpiry (h : HostId) (s : State) : Host.Outcome State Fault Refusal :=
  .next
    (match s.resetn, (s.sessions.get h).state, (s.sessions.get h).deadline with
     | true, .attached, some d => (s.reach d).lapse h
     | _, _, _ => s)

end Sys2Proof.Machine
end

