-- ==== Sys2Proof/Machine/ClaimTable.lean ====
section
/-! DEFINITION. The commands of the Claim Table Controller (chapters 1 to 3). -/

namespace Sys2Proof.Machine

/-! ## CLAIM -/

/-- The lowest-numbered line of a claim that does not permit the issuer (R17). -/
def forbiddenLine (s : State) (n : HostId) (entries : List LineEntry) : Option LineId :=
  (List.finRange 48).find? fun l => entries.any (fun e => e.line == l) && !has (s.profile.lines.get l).mask n

/-- The group of a line: lines 4g to 4g+3. -/
def groupOf (l : LineId) : GroupId :=
  ⟨l.val / 4, by omega⟩

/-- Whether a claim names a line of group `g`, and whether it names all four (R18). -/
def namesSome (entries : List LineEntry) (g : GroupId) : Bool :=
  entries.any fun e => groupOf e.line == g

/-- Whether a claim names all four lines of a group (R18). -/
def namesAll (entries : List LineEntry) (g : GroupId) : Bool :=
  (List.finRange 48).all fun l => groupOf l != g || entries.any fun e => e.line == l

/-- The lowest-numbered bonded group that a claim names in part (R18). -/
def splitGroup (s : State) (entries : List LineEntry) : Option GroupId :=
  (List.finRange 12).find? fun g => has s.profile.bonded g && namesSome entries g && !namesAll entries g

/-- Whether a ticket is in use for host `n`: a record, or a pending ticket notice (R19). -/
def ticketInUse (s : State) (n : HostId) (t : Byte) : Bool :=
  (findTicket s.slots n t).isSome || (s.boards.get n).notices.any fun x => x.1 == t

/-- Checks 2 to 7 of R15 on a claim whose payload is well formed: the answer of the first that fails, or none. -/
def claimRefusal (s : State) (n : HostId) (a : ClaimArgs) : Option Answer :=
  match forbiddenLine s n a.entries with
  | some l => some { status := .notPermitted, payload := [natByte l.val] }
  | none =>
    match splitGroup s a.entries with
    | some g => some { status := .bondSplit, payload := [natByte g.val] }
    | none =>
      if ticketInUse s n a.ticket then some (bare .ticketInUse)
      else if (s.profile.hosts.get n).quota ≤ recordCount s.slots n then some (bare .quotaExceeded)
      else if 32 ≤ recordCount s.slots n + orphanCount s.slots n (s.boards.get n) then some (bare .noticeFull)
      else if (freeSlot s.slots).isNone then some (bare .tableFull)
      else none

/-- The wait limit a record stores: a limit of 0 is stored as absent (R2). -/
def storedLimit (limit : Option Nat) : Option Nat :=
  match limit with
  | some 0 => none
  | other => other

/-- The record a claim creates, in WAITING, with its wait end (R2, R40). -/
def newRecord (s : State) (n : HostId) (a : ClaimArgs) : Record :=
  { state := .waiting
    owner := n
    ticket := a.ticket
    priority := (s.profile.hosts.get n).priority
    entry := nextEntry s.slots
    lines := a.entries
    preempt := a.preempt
    waitLimit := storedLimit a.limit
    deadline := (storedLimit a.limit).map fun w => s.now + w * Config.waitUnit
    span := (storedLimit a.limit).getD 0 }

/-- The state a granted record is in: SETTLING, or HELD where the settle time is 0 (R43, R44). -/
def grantedState (s : State) : RecState :=
  if s.profile.settle = 0 then .held else .settling

/-- The outcome of a claim that passed every check (R21), created in slot `i`. -/
def State.admitClaim (s : State) (n : HostId) (a : ClaimArgs) (i : SlotId) : State × Answer :=
  if arrivalGrantable s.slots (s.profile.hosts.get n).priority a.entries then
    ((s.grantInto i (newRecord s n a)).eligibility,
      { status := .ok, payload := [a.ticket, (grantedState s).code] })
  else if a.limit = some 0 then (s, bare .busy)
  else
    let t := (s.putRecord i (newRecord s n a)).evaluate
    (t, { status := .queued, payload := [a.ticket, natByte (positionOf t.slots i (newRecord s n a))] })

/-- The handling of CLAIM (R15, R16, R21). -/
def handleClaim (s : State) (n : HostId) (q : Request) : State × Answer :=
  match claimArgs q.payload with
  | none => (s, bare .badArgument)
  | some a =>
    match claimRefusal s n a, freeSlot s.slots with
    | some answer, _ => (s, answer)
    | none, some i => s.admitClaim n a i
    | none, none => (s, bare .tableFull)

/-- CLAIM (R12 to R22). -/
def execClaim (dt : Nat) (s : State) : Host.Outcome State Fault Refusal :=
  .next ((s.elapse dt).takeChosen .claim handleClaim)

/-! ## RELEASE -/

/-- The handling of RELEASE (R23). -/
def handleRelease (s : State) (n : HostId) (q : Request) : State × Answer :=
  match ticketArg q.payload with
  | none => (s, bare .badArgument)
  | some tk =>
    match findTicket s.slots n tk with
    | none => (s, bare .noSuchClaim)
    | some (i, r) => (s.freeAll [i] .released, { status := .ok, payload := [tk, r.state.code] })

/-- RELEASE (R23). -/
def execRelease (dt : Nat) (s : State) : Host.Outcome State Fault Refusal :=
  .next ((s.elapse dt).takeChosen .release handleRelease)

/-! ## QUERY CLAIM -/

/-- The unit of a record's time left (R26). -/
def deadlineUnit (st : RecState) : Nat :=
  match st with
  | .waiting => Config.waitUnit
  | .settling => Config.settleUnit
  | .yielding => Config.yieldUnit
  | .held => 1

/-- The time left to a record's deadline in its unit, rounded down, in the range of R26 and R146; where no time has passed since
the deadline was set, the interval less one (DESIGN CHOICE, log 23). -/
def timeLeft (now : Nat) (r : Record) : Option Nat :=
  r.deadline.map fun d => unitsLeft now d (deadlineUnit r.state) r.span

/-- The positions of a record's lines whose cells are parked; empty unless the record is HELD or YIELDING (R25). -/
def parkedPositions (s : State) (r : Record) : Byte :=
  bitsWhere fun (p : Fin 8) =>
    match r.lines[p.val]? with
    | some e => (r.state == .held || r.state == .yielding) && (s.cells.get e.line).parked
    | none => false

/-- The bytes of line entries: line number and setting byte (R161). -/
def entryBytes (es : List LineEntry) : List Byte :=
  es.flatMap fun e => [natByte e.line.val, e.setting.byte]

/-- Two bytes of an optional field, or none (R161). -/
def optionalBytes (x : Option Nat) : List Byte :=
  match x with
  | some w => natBytes2 w
  | none => []

/-- The QUERY CLAIM response payload (R25, R161). The eligible bit is read from the set the CTC keeps (R50). -/
def queryClaimPayload (s : State) (i : SlotId) (r : Record) : List Byte :=
  [r.ticket, r.state.code, natByte r.priority.val,
    flagBit r.preempt 0
      ||| flagBit (r.state == .waiting && r.preempt && s.eligible.contains i) 1
      ||| flagBit r.waitLimit.isSome 2
      ||| flagBit r.deadline.isSome 3]
    ++ (if r.state = .waiting then [natByte (positionOf s.slots i r)] else [])
    ++ optionalBytes r.waitLimit
    ++ optionalBytes (timeLeft s.now r)
    ++ [natByte r.lines.length]
    ++ entryBytes r.lines
    ++ [parkedPositions s r]

/-- The handling of QUERY CLAIM (R25). -/
def handleQueryClaim (s : State) (n : HostId) (q : Request) : State × Answer :=
  match ticketArg q.payload with
  | none => (s, bare .badArgument)
  | some tk =>
    match findTicket s.slots n tk with
    | none => (s, bare .noSuchClaim)
    | some (i, r) => (s, { status := .ok, payload := queryClaimPayload s i r })

/-- QUERY_CLAIM (R25, R26). -/
def execQueryClaim (dt : Nat) (s : State) : Host.Outcome State Fault Refusal :=
  .next ((s.elapse dt).takeChosen .queryClaim handleQueryClaim)

/-! ## The deadlines of records -/

/-- A settle end (R45, R54): the record enters HELD with GRANTED and eligibility evaluation follows; or, where an eligible
preemptor names one of its lines, it passes through HELD to YIELDING with REVOKE_NOTICE. -/
def State.settleEnd (s : State) (i : SlotId) (r : Record) : State :=
  if demanded s.slots s.eligible r then
    (s.enterHeld i r).enterYielding i r.asHeld
  else ((s.enterHeld i r).post r.owner r.ticket .granted).eligibility

/-- SETTLE_END (R45). Where slot `i` holds no record in SETTLING, or the record no deadline, none arrives (R4, log 6). -/
def execSettleEnd (i : SlotId) (s : State) : Host.Outcome State Fault Refusal :=
  .next
    (match s.resetn, s.slots.get i with
     | true, some r =>
       match r.state, r.deadline with
       | .settling, some d => (s.reach d).settleEnd i r
       | _, _ => s
     | _, _ => s)

/-- YIELD_END (R58): a forced revoke. Where slot `i` holds no YIELDING record with a deadline, none arrives (R55, log 6). -/
def execYieldEnd (i : SlotId) (s : State) : Host.Outcome State Fault Refusal :=
  .next
    (match s.resetn, s.slots.get i with
     | true, some r =>
       match r.state, r.deadline with
       | .yielding, some d => (s.reach d).freeAll [i] .revoked
       | _, _ => s
     | _, _ => s)

/-- WAIT_END (R41): a wait expiry. Where slot `i` holds no WAITING record with a deadline, none arrives (R40, log 6). -/
def execWaitEnd (i : SlotId) (s : State) : Host.Outcome State Fault Refusal :=
  .next
    (match s.resetn, s.slots.get i with
     | true, some r =>
       match r.state, r.deadline with
       | .waiting, some d => (s.reach d).freeAll [i] .waitExpired
       | _, _ => s
     | _, _ => s)

end Sys2Proof.Machine
end

