-- ==== Sys2Proof/Machine/LineCells.lean ====
section
/-! DEFINITION. The commands of the Line Cell Array (chapter 4). -/

namespace Sys2Proof.Machine

/-! ## The checks and changes the line requests share -/

/-- Whether a position set names a position. -/
def positionIn (ps : Byte) (p : Nat) : Bool :=
  ps.getLsbD p

/-- Whether a record is HELD or YIELDING (R83, check 4). -/
def Record.presenting (r : Record) : Bool :=
  r.state == .held || r.state == .yielding

/-- The lines at the positions that satisfy `p`, ascending (R3). -/
def linesAt (r : Record) (p : Nat → LineEntry → Bool) : List LineId :=
  (r.lines.zipIdx.filter fun x => p x.2 x.1).map fun x => x.1.line

/-- The line list with the setting of each position changed by `f`. -/
def editEntries (f : Nat → Setting → Setting) (es : List LineEntry) : List LineEntry :=
  es.zipIdx.map fun x => { x.1 with setting := f x.2 x.1.setting }

/-- A setting is presented in a cell in place of the one it had. Unparked, a change of mode or of effective level is a
drive change: it is presented at once and blanking starts. Parked, it is stored (R71, R84, R85). -/
def Cell.adopt (c : Cell) (st : Setting) (rest : Rest) (now : Nat) : Cell :=
  match c.applied with
  | some old =>
    if c.parked then { c with applied := some st }
    else if old.mode = st.mode ∧ effectiveLevel old = effectiveLevel st then { c with applied := some st }
    else ({ c with applied := some st }.blank now).present rest
  | none => c

/-- The record of slot `i` and the cells of its lines take new settings, position by position: "the record's entry and
the cell's copy are made equal" (R69). Only the positions `named` reach their cells. -/
def State.resettle (s : State) (i : SlotId) (r : Record) (named : Nat → Bool) (f : Nat → Setting → Setting) : State :=
  let r' := { r with lines := editEntries f r.lines }
  (s.putRecord i r').mapCells fun l c =>
    match r'.lines.zipIdx.find? fun x => x.1.line == l with
    | some x => if named x.2 then c.adopt x.1.setting (s.restOf l) s.now else c
    | none => c

/-! ## SET LEVELS -/

/-- SET LEVELS on a HELD or YIELDING record whose positions passed check 3: checks 5 and 6, then the change (R83, R84). -/
def State.applyLevels (s : State) (i : SlotId) (r : Record) (a : LevelArgs) : State × Answer :=
  match linesAt r fun p e => positionIn a.positions p && isInputMode e.setting.mode with
  | l :: _ => (s, { status := .wrongMode, payload := [natByte l.val] })
  | [] =>
    match linesAt r fun p e => positionIn a.positions p && (s.cells.get e.line).parked with
    | l :: _ => (s, { status := .lineFault, payload := [natByte l.val] })
    | [] =>
      (s.resettle i r (positionIn a.positions) fun p st =>
          if positionIn a.positions p then { st with level := positionIn a.levels p } else st,
        { status := .ok, payload := [a.ticket] })

/-- The handling of SET LEVELS (R83, R84). -/
def handleSetLevels (s : State) (n : HostId) (q : Request) : State × Answer :=
  match levelArgs q.payload with
  | none => (s, bare .badArgument)
  | some a =>
    match findTicket s.slots n a.ticket with
    | none => (s, bare .noSuchClaim)
    | some (i, r) =>
      if positionsBelow a.positions r.lines.length then
        if r.presenting then s.applyLevels i r a else (s, bare .wrongState)
      else (s, bare .badArgument)

/-- SET_LEVELS (R84). -/
def execSetLevels (dt : Nat) (s : State) : Host.Outcome State Fault Refusal :=
  .next ((s.elapse dt).takeChosen .setLevels handleSetLevels)

/-! ## RECONFIGURE -/

/-- The setting a RECONFIGURE names for a position. -/
def settingAt (named : List (Nat × Setting)) (p : Nat) : Option Setting :=
  (named.find? fun x => x.1 == p).map fun x => x.2

/-- The lines whose watch a RECONFIGURE sets to NONE (R78, R85). -/
def unwatched (r : Record) (named : List (Nat × Setting)) : LineSet :=
  bitsWhere fun l =>
    (linesAt r fun p _ => match settingAt named p with | some st => st.watch == .none | none => false).contains l

/-- Clear lines from a board's change and overrun sets (R78). -/
def Board.unwatch (b : Board) (ls : LineSet) : Board :=
  { b with change := b.change &&& ~~~ls, overrun := b.overrun &&& ~~~ls }

/-- RECONFIGURE accepted (R85). -/
def State.applySettings (s : State) (i : SlotId) (r : Record) (named : List (Nat × Setting)) : State :=
  (s.resettle i r (fun p => (settingAt named p).isSome) fun p st => (settingAt named p).getD st).editBoard r.owner fun b =>
    b.unwatch (unwatched r named)

/-- The handling of RECONFIGURE (R83, R85). -/
def handleReconfigure (s : State) (n : HostId) (q : Request) : State × Answer :=
  match reconfigureArgs q.payload with
  | none => (s, bare .badArgument)
  | some (tk, pairs) =>
    match findTicket s.slots n tk with
    | none => (s, bare .noSuchClaim)
    | some (i, r) =>
      match namedSettings r.lines.length pairs with
      | none => (s, bare .badArgument)
      | some named =>
        if r.presenting then (s.applySettings i r named, { status := .ok, payload := [tk] })
        else (s, bare .wrongState)

/-- RECONFIGURE (R85). -/
def execReconfigure (dt : Nat) (s : State) : Host.Outcome State Fault Refusal :=
  .next ((s.elapse dt).takeChosen .reconfigure handleReconfigure)

/-! ## CLEAR FAULT -/

/-- A parked line is unparked (R86): it presents its applied setting, and blanking starts. -/
def Cell.unpark (c : Cell) (rest : Rest) (now : Nat) : Cell :=
  ({ c with parked := false }.blank now).present rest

/-- The positions a CLEAR FAULT acts on: the parked ones, among those named if it names any (R86). -/
def clearedPositions (s : State) (r : Record) (ps : Option Byte) : Byte :=
  parkedPositions s r &&& ps.getD 0xFF#8

/-- CLEAR FAULT accepted (R86). -/
def State.unparkLines (s : State) (r : Record) (ps : Byte) : State :=
  s.mapCells fun l c =>
    if (linesAt r fun p _ => positionIn ps p).contains l then c.unpark (s.restOf l) s.now else c

/-- The handling of CLEAR FAULT (R83, R86). -/
def handleClearFault (s : State) (n : HostId) (q : Request) : State × Answer :=
  match clearFaultArgs q.payload with
  | none => (s, bare .badArgument)
  | some (tk, ps) =>
    match findTicket s.slots n tk with
    | none => (s, bare .noSuchClaim)
    | some (_, r) =>
      if ps.all fun w => positionsBelow w r.lines.length then
        if r.presenting then
          (s.unparkLines r (clearedPositions s r ps),
            { status := .ok, payload := [tk, clearedPositions s r ps] })
        else (s, bare .wrongState)
      else (s, bare .badArgument)

/-- CLEAR_FAULT (R86). -/
def execClearFault (dt : Nat) (s : State) : Host.Outcome State Fault Refusal :=
  .next ((s.elapse dt).takeChosen .clearFault handleClearFault)

/-! ## READ LINES and QUERY LINE -/

/-- The lines that permit a host (R87). -/
def permittedSet (s : State) (n : HostId) : LineSet :=
  bitsWhere fun l => has (s.profile.lines.get l).mask n

/-- The lines whose holder is a record of a host (R87). -/
def heldSet (s : State) (n : HostId) : LineSet :=
  bitsWhere fun l => match (s.cells.get l).holder with | some h => h.owner == n | none => false

/-- The filtered levels of all lines (R76). -/
def levelSet (s : State) : LineSet :=
  bitsWhere fun l => (s.cells.get l).filtered

/-- The handling of READ LINES (R87). -/
def handleReadLines (s : State) (n : HostId) (q : Request) : State × Answer :=
  if q.payload = [] then
    (s, { status := .ok
          payload := lineSetBytes (levelSet s &&& (permittedSet s n ||| heldSet s n))
            ++ lineSetBytes (permittedSet s n) ++ lineSetBytes (heldSet s n) })
  else (s, bare .badArgument)

/-- READ_LINES (R87). -/
def execReadLines (dt : Nat) (s : State) : Host.Outcome State Fault Refusal :=
  .next ((s.elapse dt).takeChosen .readLines handleReadLines)

/-- The code of a line's state (R88, R161): 0 FREE, 1 SETTLING, 2 HELD, 3 YIELDING, 4 PARKED. -/
def lineStateCode (c : Cell) : Byte :=
  match c.holder with
  | none => 0#8
  | some h =>
    match h.state with
    | .settling => 1#8
    | .held => if c.parked then 4#8 else 2#8
    | .yielding => if c.parked then 4#8 else 3#8
    | .waiting => 0#8

/-- The QUERY LINE response payload (R88, R161). -/
def queryLinePayload (s : State) (n : HostId) (l : LineId) : List Byte :=
  let c := s.cells.get l
  [natByte l.val, lineStateCode c,
    (match c.holder with | some h => natByte h.owner.val | none => 0xFF#8),
    (match c.holder with | some h => if h.owner = n then h.ticket else 0#8 | none => 0#8),
    natByte (queueOf s.slots l).length,
    (s.restOf l).code ||| flagBit (has s.profile.bonded (groupOf l)) 7]

/-- The handling of QUERY LINE (R88). -/
def handleQueryLine (s : State) (n : HostId) (q : Request) : State × Answer :=
  match lineArg q.payload with
  | none => (s, bare .badArgument)
  | some l =>
    if has (permittedSet s n ||| heldSet s n) l then (s, { status := .ok, payload := queryLinePayload s n l })
    else (s, bare .notPermitted)

/-- QUERY_LINE (R88). -/
def execQueryLine (dt : Nat) (s : State) : Host.Outcome State Fault Refusal :=
  .next ((s.elapse dt).takeChosen .queryLine handleQueryLine)

/-! ## The sampling tick -/

/-- Stage 1 (R75): the sample, the run count and the filtered level. -/
def Cell.filter (c : Cell) (level : Bool) : Cell :=
  if level = c.filtered then { c with raw := level, run := 0 }
  else if c.filterLength ≤ c.run + 1 then { c with raw := level, filtered := level, run := 0 }
  else { c with raw := level, run := c.run + 1 }

/-- Whether a watch selects an edge to `level` (R77). -/
def selects (w : Watch) (level : Bool) : Bool :=
  match w with
  | .none => false
  | .rising => level
  | .falling => !level
  | .both => true

/-- Stage 2 (R75, R77): whether the sample made an edge that the active watch selects. -/
def Cell.edge (c : Cell) (level : Bool) : Bool :=
  match c.claimed with
  | some st => !c.parked && (c.filter level).filtered != c.filtered && selects st.watch level
  | none => false

/-- Whether the comparator is held off at a tick of time `at`: blanking runs to its end, and a tick at the end itself is not
compared (R80, R142). -/
def Cell.heldOff (c : Cell) (moment : Nat) : Bool :=
  (match c.blanking with | some e => decide (moment ≤ e) | none => false) || decide (moment ≤ c.blankedTo)

/-- Stage 3 (R75, R80): whether the sample parks the line. -/
def Cell.faults (c : Cell) (level : Bool) (moment : Nat) : Bool :=
  match c.claimed with
  | some st =>
    !c.parked && !c.heldOff moment && (match drivenLevel st with | some d => (c.filter level).filtered != d | none => false)
  | none => false

/-- The line is parked (R80): it presents rest, and blanking and the watch stop. -/
def Cell.park (c : Cell) (rest : Rest) : Cell :=
  { c with parked := true, blanking := none }.present rest

/-- A sample of a cell: filter, watch, compare (R75). -/
def Cell.sample (c : Cell) (level : Bool) (moment : Nat) (rest : Rest) : Cell :=
  if c.faults level moment then (c.filter level).park rest else c.filter level

/-- The lines whose cells satisfy `p` and whose holder is a record of host `h`. -/
def ownLines (s : State) (h : HostId) (p : LineId → Cell → Bool) : LineSet :=
  bitsWhere fun l =>
    (match (s.cells.get l).holder with | some x => x.owner == h | none => false) && p l (s.cells.get l)

/-- The board's line sets after a sample: edges join the change set, or the overrun set where already in the change set, and
parks join the fault set (R77, R110). -/
def Board.sampled (b : Board) (edges parks : LineSet) : Board :=
  { b with
    change := b.change ||| edges, overrun := b.overrun ||| (edges &&& b.change), fault := b.fault ||| parks }

/-- The time of the tick: the next tick due; or, where the time has passed it, the next after now on the same grid (R141,
log 3). -/
def State.tickTime (s : State) : Nat :=
  if s.now ≤ s.nextTick then s.nextTick
  else s.nextTick + Config.tickPeriod * ((s.now - s.nextTick) / Config.tickPeriod + 1)

/-- A sampling tick (R75, R141): all 48 lines are sampled at the same moment. -/
def State.tick (s : State) (levels : LineSet) : State :=
  let t := s.tickTime
  let boards := (List.finRange 4).foldl (fun u h =>
    u.editBoard h fun b =>
      b.sampled (ownLines s h fun l c => c.edge (has levels l)) (ownLines s h fun l c => c.faults (has levels l) t)) s
  { boards.mapCells fun l c => c.sample (has levels l) t (s.restOf l) with now := t, nextTick := t + Config.tickPeriod }

/-- SAMPLING_TICK (R141). While RESETn is low no tick is delivered (R139). -/
def execSamplingTick (levels : LineSet) (s : State) : Host.Outcome State Fault Refusal :=
  .next (if s.resetn then s.tick levels else s)

/-- A cell's blanking ends (R79, R142). -/
def Cell.unblank (c : Cell) (e : Nat) : Cell :=
  { c with blanking := none, blankedTo := e }

/-- BLANKING_END (R142). Where the line's blanking is not running, it has no end (log 6). -/
def execBlankingEnd (l : LineId) (s : State) : Host.Outcome State Fault Refusal :=
  .next
    (match s.resetn, (s.cells.get l).blanking with
     | true, some e => { s.reach e with cells := s.cells.set l ((s.cells.get l).unblank e) }
     | _, _ => s)

end Sys2Proof.Machine
end

