-- ==== Sys2Proof/Machine/NoticeBoard.lean ====
section
/-! DEFINITION. The command of the Notice Board (chapter 6). -/

namespace Sys2Proof.Machine

/-- The most ticket notices one fetch returns (R116). -/
def fetchLimit : Nat := 12

/-- The notices a fetch returns: those of the lowest tickets, up to twelve (R116). -/
def Board.returned (b : Board) : List (Byte × NoticeKind) :=
  b.notices.take fetchLimit

/-- MORE: whether the board holds further ticket notices (R116). -/
def Board.more (b : Board) : Bool :=
  decide (fetchLimit < b.notices.length)

/-- The FETCH NOTICES response payload (R116, R161). -/
def fetchPayload (b : Board) : List Byte :=
  b.flags.byte :: lineSetBytes b.change ++ lineSetBytes b.overrun ++ lineSetBytes b.fault
    ++ [natByte b.returned.length ||| flagBit b.more 7]
    ++ b.returned.flatMap fun x => [x.1, x.2.code]

/-- What a fetch leaves on the board: the ticket notices it did not return (R117). -/
def Board.fetched (b : Board) : Board :=
  { Board.empty with notices := b.notices.drop fetchLimit }

/-- The handling of FETCH NOTICES (R115, R116, R117). -/
def handleFetch (s : State) (n : HostId) (q : Request) : State × Answer :=
  if q.payload = [] then
    (s.editBoard n Board.fetched, { status := .ok, payload := fetchPayload (s.boards.get n) })
  else (s, bare .badArgument)

/-- FETCH_NOTICES (R115 to R117). -/
def execFetchNotices (dt : Nat) (n : HostId) (s : State) : Host.Outcome State Fault Refusal :=
  .next ((s.elapse dt).takeAt n .fetchNotices handleFetch)

end Sys2Proof.Machine
end

