-- ==== Sys2Proof/Machine/ProfileUnit.lean ====
section
/-! DEFINITION. The commands of the Profile Unit (chapter 7, and SET TIMING of chapter 8). -/

namespace Sys2Proof.Machine

/-- Whether a host belongs to the admin mask (R122). -/
def State.isAdmin (s : State) (n : HostId) : Bool :=
  has s.profile.admin n

/-- Checks 1 to 3 of R124, then the edit: NOT_ADMIN, PROFILE_LOCKED, BAD_ARGUMENT where the payload does not parse. -/
def profileEdit {α : Type} (s : State) (n : HostId) (args : Option α) (f : α → State × Answer) : State × Answer :=
  if s.isAdmin n then
    if s.profile.state = .opened then
      match args with
      | some a => f a
      | none => (s, bare .badArgument)
    else (s, bare .profileLocked)
  else (s, bare .notAdmin)

/-! ## READ PROFILE -/

/-- The bytes of lines `first` to `first + 23` (R131). -/
def lineProfileBytes (s : State) (first : Nat) : List Byte :=
  (List.finRange 48).filterMap fun l =>
    if first ≤ l.val ∧ l.val < first + 24 then some (s.profile.lines.get l).byte else none

/-- The time left to the vote deadline in 100 ms units, rounded down, 0 to 99, and 0 when no vote runs (R131, R146). The vote
window cannot have changed since the deadline was set (R145). -/
def voteLeft (s : State) : Nat :=
  match s.vote.deadline with
  | some d => unitsLeft s.now d Config.voteUnit s.profile.voteWindow
  | none => 0

/-- Section 2 of READ PROFILE (R131, R161). The bonded groups are one two-byte field, high byte first (DEDUCED, log 16). -/
def profileSummary (s : State) : List Byte :=
  [profileFlags s, voteSetsByte s, natByte (voteLeft s), hostSetByte s.profile.admin]
    ++ u16Bytes (s.profile.bonded.setWidth 16)
    ++ ((List.finRange 4).flatMap fun h =>
      [natByte (s.profile.hosts.get h).priority.val, natByte (s.profile.hosts.get h).quota])
    ++ [natByte s.profile.settle] ++ natBytes2 s.profile.yieldWindow ++ [natByte s.profile.voteWindow]

/-- The handling of READ PROFILE (R131). -/
def handleReadProfile (s : State) (_n : HostId) (q : Request) : State × Answer :=
  match sectionArg q.payload with
  | none => (s, bare .badArgument)
  | some 0 => (s, { status := .ok, payload := lineProfileBytes s 0 })
  | some 1 => (s, { status := .ok, payload := lineProfileBytes s 24 })
  | some _ => (s, { status := .ok, payload := profileSummary s })

/-- READ_PROFILE (R131). -/
def execReadProfile (dt : Nat) (s : State) : Host.Outcome State Fault Refusal :=
  .next ((s.elapse dt).takeChosen .readProfile handleReadProfile)

/-! ## SET LINE PROFILE -/

/-- The entry an edit gives for a line. -/
def entryFor (es : List (LineId × LineProfile)) (l : LineId) : Option LineProfile :=
  (es.find? fun e => e.1 == l).map fun e => e.2

/-- Every line's new mask and rest state are stored (R125, step 1). -/
def State.storeLines (s : State) (es : List (LineId × LineProfile)) : State :=
  { s with profile := { s.profile with
      lines := Table.ofFn fun l => (entryFor es l).getD (s.profile.lines.get l) } }

/-- The cells of the edited lines are told their rest state: one presenting rest presents the new one at once, and one
presenting a claim's setting keeps it (R72; R125, step 2). -/
def State.tellRest (s : State) (es : List (LineId × LineProfile)) : State :=
  s.mapCells fun l c => if (entryFor es l).isSome then c.present (s.restOf l) else c

/-- Whether an edit takes host `h` out of line `l`'s mask (R126). -/
def removes (s : State) (es : List (LineId × LineProfile)) (l : LineId) (h : HostId) : Bool :=
  match entryFor es l with
  | some p => has (s.profile.lines.get l).mask h && !has p.mask h
  | none => false

/-- The slots of the WAITING records an edit excludes (R126). -/
def excluded (s : State) (es : List (LineId × LineProfile)) : List SlotId :=
  slotsWhere s.slots fun r => r.state == .waiting && r.lines.any fun e => removes s es e.line r.owner

/-- SET LINE PROFILE accepted (R125, R126). An edit that excludes no record frees none, and no evaluation follows (log 17). -/
def State.applyLineProfile (s : State) (es : List (LineId × LineProfile)) : State :=
  let stored := (s.storeLines es).tellRest es
  if excluded s es = [] then stored else stored.freeAll (excluded s es) .denied

/-- The handling of SET LINE PROFILE (R124, R125). -/
def handleSetLineProfile (s : State) (n : HostId) (q : Request) : State × Answer :=
  profileEdit s n (lineProfileArgs q.payload) fun es =>
    (s.applyLineProfile es, { status := .ok, payload := [natByte (excluded s es).length] })

/-- SET_LINE_PROFILE (R124 to R126). -/
def execSetLineProfile (dt : Nat) (s : State) : Host.Outcome State Fault Refusal :=
  .next ((s.elapse dt).takeChosen .setLineProfile handleSetLineProfile)

/-! ## SET BOND -/

/-- Whether some non-FREE record names a line of a group (R128). -/
def groupBusy (s : State) (g : GroupId) : Bool :=
  (recordsOf s.slots).any fun x => namesSome x.2.lines g

/-- The bond of a group is set or removed. -/
def State.setBonded (s : State) (g : GroupId) (v : Bool) : State :=
  { s with profile := { s.profile with
      bonded := if v then s.profile.bonded ||| bitOf g else s.profile.bonded &&& ~~~ bitOf g } }

/-- The handling of SET BOND (R124, R128). -/
def handleSetBond (s : State) (n : HostId) (q : Request) : State × Answer :=
  profileEdit s n (bondArgs q.payload) fun a =>
    if a.2 && !has s.profile.bonded a.1 && groupBusy s a.1 then (s, bare .groupBusy)
    else (s.setBonded a.1 a.2, bare .ok)

/-- SET_BOND (R128). -/
def execSetBond (dt : Nat) (s : State) : Host.Outcome State Fault Refusal :=
  .next ((s.elapse dt).takeChosen .setBond handleSetBond)

/-! ## SET HOST PROFILE -/

/-- A host's priority, quota and admin standing are replaced (R130). -/
def State.setHost (s : State) (a : HostArgs) : State :=
  { s with profile := { s.profile with
      hosts := s.profile.hosts.set a.host { priority := a.priority, quota := a.quota }
      admin := if a.admin then s.profile.admin ||| bitOf a.host else s.profile.admin &&& ~~~ bitOf a.host } }

/-- The handling of SET HOST PROFILE (R124, R129, R130). -/
def handleSetHostProfile (s : State) (n : HostId) (q : Request) : State × Answer :=
  profileEdit s n (hostArgs q.payload) fun a =>
    if a.admin = false ∧ s.profile.admin = bitOf a.host then (s, bare .badArgument)
    else if a.quota < recordCount s.slots a.host then
      (s, { status := .belowUse, payload := [natByte (recordCount s.slots a.host)] })
    else (s.setHost a, bare .ok)

/-- SET_HOST_PROFILE (R129, R130). -/
def execSetHostProfile (dt : Nat) (s : State) : Host.Outcome State Fault Refusal :=
  .next ((s.elapse dt).takeChosen .setHostProfile handleSetHostProfile)

/-! ## SET TIMING -/

/-- The three timing values are replaced (R147); no running deadline is touched (R148). -/
def State.setTiming (s : State) (a : TimingArgs) : State :=
  { s with profile := { s.profile with settle := a.settle, yieldWindow := a.yieldWindow, voteWindow := a.voteWindow } }

/-- The handling of SET TIMING (R124, R147). -/
def handleSetTiming (s : State) (n : HostId) (q : Request) : State × Answer :=
  profileEdit s n (timingArgs q.payload) fun a =>
    (s.setTiming a,
      { status := .ok, payload := natByte a.settle :: natBytes2 a.yieldWindow ++ [natByte a.voteWindow] })

/-- SET_TIMING (R147, R148). -/
def execSetTiming (dt : Nat) (s : State) : Host.Outcome State Fault Refusal :=
  .next ((s.elapse dt).takeChosen .setTiming handleSetTiming)

/-! ## COMMIT PROFILE -/

/-- The handling of COMMIT PROFILE (R124, R132). -/
def handleCommitProfile (s : State) (n : HostId) (q : Request) : State × Answer :=
  profileEdit s n (if q.payload = [] then some () else none) fun _ =>
    ({ s with profile := { s.profile with state := .committed } }, bare .ok)

/-- COMMIT_PROFILE (R132). -/
def execCommitProfile (dt : Nat) (s : State) : Host.Outcome State Fault Refusal :=
  .next ((s.elapse dt).takeChosen .commitProfile handleCommitProfile)

/-! ## REOPEN VOTE -/

/-- A vote starts (R133, R134): its deadline is one vote window ahead, the attached hosts are required, the issuer has
voted, and VOTE_OPEN is posted to every attached host but the issuer. -/
def State.startVote (s : State) (n : HostId) : State :=
  (({ s with vote :=
        { running := true, deadline := some (s.now + s.profile.voteWindow * Config.voteUnit)
          required := s.attachedSet, voted := bitOf n } }.setVoted n true).forHosts (s.attachedSet &&& ~~~ bitOf n)
      State.postVoteOpen).completionTest

/-- The issuer's vote is counted in the running vote (R134). -/
def State.countVote (s : State) (n : HostId) : State :=
  ({ s with vote := { s.vote with voted := s.vote.voted ||| bitOf n } }.setVoted n true).completionTest

/-- The vote after a REOPEN VOTE taken while COMMITTED (R134). -/
def State.reopenVote (s : State) (n : HostId) : State :=
  if s.vote.running then (if has s.vote.voted n then s else s.countVote n) else s.startVote n

/-- The response to an accepted REOPEN VOTE (R134, R161). -/
def voteAnswer (s : State) : Answer :=
  { status := .ok, payload := [profileFlags s, voteSetsByte s] }

/-- The handling of REOPEN VOTE (R134); a payload is answered before the profile state is looked at (DEDUCED, log 12). -/
def handleReopenVote (s : State) (n : HostId) (q : Request) : State × Answer :=
  if q.payload = [] then
    if s.profile.state = .committed then (s.reopenVote n, voteAnswer (s.reopenVote n))
    else (s, bare .wrongState)
  else (s, bare .badArgument)

/-- REOPEN_VOTE (R133 to R135). -/
def execReopenVote (dt : Nat) (s : State) : Host.Outcome State Fault Refusal :=
  .next ((s.elapse dt).takeChosen .reopenVote handleReopenVote)

/-- VOTE_DEADLINE (R136): the vote ends without completing, and VOTE_FAILED is posted to every host in the voted set. Where no
vote runs, no deadline arrives (log 6). -/
def execVoteDeadline (s : State) : Host.Outcome State Fault Refusal :=
  .next
    (match s.resetn, s.vote.running, s.vote.deadline with
     | true, true, some d =>
       (s.reach d).endVote.forHosts s.vote.voted fun t h => t.flag h fun f => { f with voteFailed := true }
     | _, _, _ => s)

/-! ## CLEAR ALL -/

/-- The hosts a CLEAR ALL lapses: every ATTACHED host but the issuer (R101, R137). -/
def lapsedBy (s : State) (n : HostId) : HostSet :=
  s.attachedSet &&& ~~~ bitOf n

/-- CLEAR ALL accepted (R137): the vote ends, the other ATTACHED sessions lapse, every record is freed, and the boards of the
hosts lapsed are cleared and flagged. -/
def State.clearAll (s : State) (n : HostId) : State :=
  let ended := s.endVote
  let lapsed := ended.forHosts (lapsedBy s n) fun t h => t.putSession h ((t.sessions.get h).ended .lapsed)
  let freed := lapsed.freeAll (slotsWhere s.slots fun _ => true) .clearAll
  freed.forHosts (lapsedBy s n) fun t h => (t.clearBoard h).flag h fun f => { f with lapsedCleared := true }

/-- The handling of CLEAR ALL (R137). Where the payload is not empty and the issuer is no admin, R137 gives both answers and
no order: a free value decides (log 11). -/
def handleClearAll (s : State) (n : HostId) (q : Request) : State × Answer :=
  if q.payload = [] then
    if s.isAdmin n then
      (s.clearAll n,
        { status := .ok, payload := [natByte (recordsOf s.slots).length, hostSetByte (lapsedBy s n)] })
    else (s, bare .notAdmin)
  else if s.isAdmin n || Config.clearAllArgumentFirst then (s, bare .badArgument)
  else (s, bare .notAdmin)

/-- CLEAR_ALL (R101, R137). -/
def execClearAll (dt : Nat) (s : State) : Host.Outcome State Fault Refusal :=
  .next ((s.elapse dt).takeChosen .clearAll handleClearAll)

end Sys2Proof.Machine
end

