-- ==== Sys2Proof/Machine/Dispatch.lean ====
section
/-! DEFINITION. The dispatch: one arm per command. -/

namespace Sys2Proof.Machine

def exec (i : Instr) (s : State) : Host.Outcome State Fault Refusal :=
  match i with
  | .hardwareReset dt => Sys2Proof.Machine.execHardwareReset dt s
  | .resetnRise dt levels => Sys2Proof.Machine.execResetnRise dt levels s
  | .requestFrame dt n early bits => Sys2Proof.Machine.execRequestFrame dt n early bits s
  | .readTransaction dt n early clocks => Sys2Proof.Machine.execReadTransaction dt n early clocks s
  | .ignoredTransaction dt n bits => Sys2Proof.Machine.execIgnoredTransaction dt n bits s
  | .status dt n => Sys2Proof.Machine.execStatus dt n s
  | .attach dt n => Sys2Proof.Machine.execAttach dt n s
  | .detach dt n => Sys2Proof.Machine.execDetach dt n s
  | .heartbeat dt n => Sys2Proof.Machine.execHeartbeat dt n s
  | .claim dt => Sys2Proof.Machine.execClaim dt s
  | .release dt => Sys2Proof.Machine.execRelease dt s
  | .queryClaim dt => Sys2Proof.Machine.execQueryClaim dt s
  | .setLevels dt => Sys2Proof.Machine.execSetLevels dt s
  | .reconfigure dt => Sys2Proof.Machine.execReconfigure dt s
  | .clearFault dt => Sys2Proof.Machine.execClearFault dt s
  | .readLines dt => Sys2Proof.Machine.execReadLines dt s
  | .queryLine dt => Sys2Proof.Machine.execQueryLine dt s
  | .fetchNotices dt n => Sys2Proof.Machine.execFetchNotices dt n s
  | .readProfile dt => Sys2Proof.Machine.execReadProfile dt s
  | .setLineProfile dt => Sys2Proof.Machine.execSetLineProfile dt s
  | .setBond dt => Sys2Proof.Machine.execSetBond dt s
  | .setHostProfile dt => Sys2Proof.Machine.execSetHostProfile dt s
  | .setTiming dt => Sys2Proof.Machine.execSetTiming dt s
  | .commitProfile dt => Sys2Proof.Machine.execCommitProfile dt s
  | .reopenVote dt => Sys2Proof.Machine.execReopenVote dt s
  | .clearAll dt => Sys2Proof.Machine.execClearAll dt s
  | .samplingTick levels => Sys2Proof.Machine.execSamplingTick levels s
  | .blankingEnd l => Sys2Proof.Machine.execBlankingEnd l s
  | .settleEnd k => Sys2Proof.Machine.execSettleEnd k s
  | .yieldEnd k => Sys2Proof.Machine.execYieldEnd k s
  | .waitEnd k => Sys2Proof.Machine.execWaitEnd k s
  | .heartbeatExpiry h => Sys2Proof.Machine.execHeartbeatExpiry h s
  | .voteDeadline => Sys2Proof.Machine.execVoteDeadline s

end Sys2Proof.Machine
end

