-- ==== Sys2Proof/WellFormed.lean ====
section
/-! DEFINITION. Which commands and which request frames are well formed. -/

namespace Sys2Proof

/-- A command is well formed when it is an event the part can meet: an ignored transaction has neither known opener
(R150). Every operand of the other commands is in range by its type. -/
def Instr.wellFormed : Instr → Bool
  | .ignoredTransaction _ _ bits => openerOf bits != some writeOpener && openerOf bits != some readOpener
  | .hardwareReset _ | .resetnRise _ _ | .requestFrame _ _ _ _ | .readTransaction _ _ _ _ => true
  | .status _ _ | .attach _ _ | .detach _ _ | .heartbeat _ _ => true
  | .claim _ | .release _ | .queryClaim _ => true
  | .setLevels _ | .reconfigure _ | .clearFault _ | .readLines _ | .queryLine _ => true
  | .fetchNotices _ _ => true
  | .readProfile _ | .setLineProfile _ | .setBond _ | .setHostProfile _ | .setTiming _ => true
  | .commitProfile _ | .reopenVote _ | .clearAll _ => true
  | .samplingTick _ | .blankingEnd _ | .settleEnd _ | .yieldEnd _ | .waitEnd _ => true
  | .heartbeatExpiry _ | .voteDeadline => true

/-- A frame's payload is 0 to 60 bytes (R152). -/
def Frame.wellFormed (f : Frame) : Bool :=
  decide (f.payload.length ≤ 60)

end Sys2Proof
end

