-- ==== Sys2Proof/Safety.lean ====
section
/-! DEFINITION. The terms the statements use: requests taken and answered, what the rules of spec/ test and change,
and the invariants of the machine. Each reads a rule again, apart from the operations the commands call. -/

namespace Sys2Proof

/-- A frame of a request as a host writes it: at most 60 bytes of payload, and the CRC byte they call for (R152, R154). -/
abbrev Frame.proper (f : Frame) : Prop :=
  f.payload.length ≤ 60 ∧ f.crc = crc8 f.covered

/-- The kinds R92 allows in each session state. -/
abbrev SessState.allows (st : SessState) (k : Kind) : Prop :=
  k = .attach ∨ k = .status ∨ (st = .lapsed ∧ (k = .fetchNotices ∨ k = .detach)) ∨ st = .attached

/-! ### The codes and layouts of R161, read apart from the encoder and the decoder -/

/-- The kind table of R161. -/
def Kind.number : Kind → Nat
  | .status => 0x01 | .attach => 0x02 | .detach => 0x03 | .heartbeat => 0x04 | .claim => 0x10 | .release => 0x11
  | .queryClaim => 0x12 | .setLevels => 0x20 | .reconfigure => 0x21 | .clearFault => 0x22 | .readLines => 0x23
  | .queryLine => 0x24 | .fetchNotices => 0x30 | .readProfile => 0x40 | .setLineProfile => 0x41
  | .setHostProfile => 0x42 | .setTiming => 0x43 | .commitProfile => 0x44 | .reopenVote => 0x45 | .clearAll => 0x46
  | .setBond => 0x47

/-- The status table of R161. -/
def Status.number : Status → Nat
  | .ok => 0 | .queued => 1 | .busy => 2 | .frameError => 3 | .unknownKind => 4 | .badArgument => 5 | .notAttached => 6
  | .lapsed => 7 | .staleEpoch => 8 | .noSuchClaim => 9 | .ticketInUse => 10 | .notPermitted => 11 | .bondSplit => 12
  | .quotaExceeded => 13 | .noticeFull => 14 | .tableFull => 15 | .wrongState => 16 | .wrongMode => 17 | .lineFault => 18
  | .notAdmin => 19 | .profileLocked => 20 | .groupBusy => 21 | .belowUse => 22

/-- The setting byte of R161 as a number: bits 2 to 0 the mode's code, bit 3 the level, bits 5 and 4 the watch's code, bits 7 and 6
the filter code. -/
def Setting.number (st : Setting) : Nat :=
  (match st.mode with | .input => 0 | .inputPullup => 1 | .inputPulldown => 2 | .openDrain => 3 | .pushPull => 4)
    + (if st.level then 8 else 0)
    + 16 * (match st.watch with | .none => 0 | .rising => 1 | .falling => 2 | .both => 3)
    + 64 * st.filter.val

/-- A number of two bytes, high byte first (R161). -/
def twoBytes (n : Nat) : List Byte :=
  [BitVec.ofNat 8 (n / 256), BitVec.ofNat 8 n]

/-- The line-set form of R161: six bytes, bit b of byte j standing for line 8j + b. -/
def sentLines (w : LineSet) : List Byte :=
  (List.range 6).map fun j => BitVec.ofFnLE fun b : Fin 8 => w.getLsbD (8 * j + b.val)

/-! ### What a pin does, read apart from the line cells -/

/-- The table of R71: the pin under a claim's mode and level. -/
def Setting.pin (st : Setting) : Presented :=
  match st.mode, st.level with
  | .input, _ => .float
  | .inputPullup, _ => .weakPullUp
  | .inputPulldown, _ => .weakPullDown
  | .openDrain, false => .driveLow
  | .openDrain, true => .float
  | .pushPull, false => .driveLow
  | .pushPull, true => .driveHigh

/-- The table of R72: the pin under a line's rest state. -/
def Rest.pin : Rest → Presented
  | .float => .float
  | .pullUp => .weakPullUp
  | .pullDown => .weakPullDown
  | .driveLow => .driveLow
  | .driveHigh => .driveHigh

/-- The levels of a setting that a drive shows (R85). -/
def Setting.driveOf (st : Setting) : Mode × Option Bool :=
  (st.mode, match st.mode with | .openDrain | .pushPull => some st.level | _ => none)

/-! ### Time -/

/-- The time that passes at a command beside the moment of its event: `dt`, or none where it carries no `dt` (log 1). -/
def Instr.elapsed : Instr → Nat
  | .hardwareReset dt | .resetnRise dt _ | .requestFrame dt _ _ _ | .readTransaction dt _ _ _ | .ignoredTransaction dt _ _ => dt
  | .status dt _ | .attach dt _ | .detach dt _ | .heartbeat dt _ | .fetchNotices dt _ => dt
  | .claim dt | .release dt | .queryClaim dt | .setLevels dt | .reconfigure dt | .clearFault dt | .readLines dt => dt
  | .queryLine dt | .readProfile dt | .setLineProfile dt | .setBond dt | .setHostProfile dt | .setTiming dt => dt
  | .commitProfile dt | .reopenVote dt | .clearAll dt => dt
  | .samplingTick _ | .blankingEnd _ | .settleEnd _ | .yieldEnd _ | .waitEnd _ | .heartbeatExpiry _ | .voteDeadline => 0

end Sys2Proof

namespace Sys2Proof.Machine

/-! ## Requests taken and answered -/

/-- Port `n` has request `q` in hand: its link is PENDING (R149). -/
abbrev State.waits (s : State) (n : HostId) (q : Request) : Prop :=
  (s.ports.get n).link = .pending ∧ (s.ports.get n).request = some q

/-- The session of host `n` is ATTACHED under epoch `e` (R13, R94). -/
abbrev State.current (s : State) (n : HostId) (e : BitVec 16) : Prop :=
  (s.sessions.get n).state = .attached ∧ (s.sessions.get n).epoch = e

/-- The block that owns kind `k` is about to take request `q` from port `n`: RESETn is high, and the turn is that port's. -/
abbrev State.offers (s : State) (k : Kind) (n : HostId) (q : Request) : Prop :=
  s.resetn = true ∧ s.waits n q ∧ q.kind = k ∧ s.chosen k.owner = some n

/-- No request of kind `k` is there for its block to take, by the block's own choice of link (R12, R83, R123). -/
abbrev State.noneOffered (s : State) (k : Kind) : Prop :=
  ∀ n q, ¬ s.offers k n q

/-- No request of kind `k` is in hand at port `n`, whose host the block serves on its own (R90, R115). -/
abbrev State.noneWaits (s : State) (k : Kind) (n : HostId) : Prop :=
  ∀ q, ¬ (s.resetn = true ∧ s.waits n q ∧ q.kind = k)

/-- No record of slot `i` in state `st` holds a deadline that can arrive (R4, R140). -/
abbrev State.noneDue (s : State) (i : SlotId) (st : RecState) : Prop :=
  ¬ (s.resetn = true ∧ ∃ r ∈ s.slots.get i, r.state = st ∧ r.deadline.isSome = true)

/-- The block that owns kind `k` takes request `q` from port `n`, and the session it was admitted under stands (R13, R94). -/
abbrev State.takes (s : State) (k : Kind) (n : HostId) (q : Request) : Prop :=
  s.offers k n q ∧ s.current n q.epoch

/-- From `s` to `t`, the response `st` with `payload` is posted to port `n` for its request `q`, as R156 lists it, and no other port
changes. -/
abbrev posts (s t : State) (n : HostId) (q : Request) (st : Status) (payload : List Byte) : Prop :=
  t.ports.get n =
      { s.ports.get n with
        link := .answered, request := none, replay := false
        response := some { status := st, seq := q.seq, payload := payload }
        saved := some { status := st, seq := q.seq, payload := payload }
        signature := some { kind := BitVec.ofNat 8 q.kind.number, epoch := q.epoch, seq := q.seq, crc := q.crc } }
    ∧ ∀ m, m ≠ n → t.ports.get m = s.ports.get m

/-- From `s` to `t`, `dt` passes, the owner of kind `k` has served port `n`, the response is posted, and nothing else changes. -/
abbrev onlyAnswers (s t : State) (dt : Nat) (k : Kind) (n : HostId) (q : Request) (st : Status) (payload : List Byte) : Prop :=
  t = { (s.elapse dt).serve k.owner n with ports := t.ports } ∧ posts s t n q st payload

/-- What `posts` leaves of a state in which the owner of kind `k` has served port `n` after `dt`: the state the handling of the
request started from. -/
def State.turn (s : State) (dt : Nat) (k : Kind) (n : HostId) : State :=
  (s.elapse dt).serve k.owner n

/-- The part cannot meet the command's event in state `s`: RESETn is at its level already or holds it off, no such request is there
to take, or no such deadline is held (R4, R74, R140; that such a command is run at all is log 6). -/
def State.cannotMeet (s : State) : Instr → Prop
  | .hardwareReset _ | .requestFrame _ _ _ _ | .readTransaction _ _ _ _ | .ignoredTransaction _ _ _ => False
  | .resetnRise _ _ => s.resetn = true
  | .status _ n => s.noneWaits .status n
  | .attach _ n => s.noneWaits .attach n
  | .detach _ n => s.noneWaits .detach n
  | .heartbeat _ n => s.noneWaits .heartbeat n
  | .claim _ => s.noneOffered .claim
  | .release _ => s.noneOffered .release
  | .queryClaim _ => s.noneOffered .queryClaim
  | .setLevels _ => s.noneOffered .setLevels
  | .reconfigure _ => s.noneOffered .reconfigure
  | .clearFault _ => s.noneOffered .clearFault
  | .readLines _ => s.noneOffered .readLines
  | .queryLine _ => s.noneOffered .queryLine
  | .fetchNotices _ n => s.noneWaits .fetchNotices n
  | .readProfile _ => s.noneOffered .readProfile
  | .setLineProfile _ => s.noneOffered .setLineProfile
  | .setBond _ => s.noneOffered .setBond
  | .setHostProfile _ => s.noneOffered .setHostProfile
  | .setTiming _ => s.noneOffered .setTiming
  | .commitProfile _ => s.noneOffered .commitProfile
  | .reopenVote _ => s.noneOffered .reopenVote
  | .clearAll _ => s.noneOffered .clearAll
  | .samplingTick _ => s.resetn = false
  | .blankingEnd l => ¬ (s.resetn = true ∧ (s.cells.get l).blanking.isSome = true)
  | .settleEnd i => s.noneDue i .settling
  | .yieldEnd i => s.noneDue i .yielding
  | .waitEnd i => s.noneDue i .waiting
  | .heartbeatExpiry h =>
    ¬ (s.resetn = true ∧ (s.sessions.get h).state = .attached ∧ (s.sessions.get h).deadline.isSome = true)
  | .voteDeadline => ¬ (s.resetn = true ∧ s.vote.running = true ∧ s.vote.deadline.isSome = true)

/-! ## Frames -/

/-- The checks of R153 on the whole bytes `bs` and the bits `rest` of a byte cut short: the reason of the first that fails. -/
def frameFault (bs : List Byte) (rest : List Bool) : Option Byte :=
  if rest ≠ [] ∨ bs.length < 6 then some 0x01#8
  else if 60 < (bs.getD 4 0#8).toNat then some 0x02#8
  else if bs.length ≠ 6 + (bs.getD 4 0#8).toNat then some 0x01#8
  else if bs.getLast? ≠ some (crc8 bs.dropLast) then some 0x03#8
  else none

/-- A frame repeats the request that produced the port's saved response (R155). -/
abbrev Port.repeats (p : Port) (f : Frame) : Prop :=
  p.saved.isSome = true ∧ p.signature = some { kind := f.kind, epoch := f.epoch, seq := f.seq, crc := f.crc }

/-- The port after the frame of a write it accepted has been received (R151). -/
def Port.received (p : Port) (bs : List Byte) (rest : List Bool) : Port :=
  { p with
    link := .receiving, buffer := bs.take 66
    sdo := List.replicate (8 + 8 * bs.length + rest.length) true }

/-! ## Sessions -/

/-- The Session Unit admits a request of kind `k` under epoch `e` (R92). -/
abbrev Session.admits (c : Session) (k : Kind) (e : BitVec 16) : Prop :=
  c.state.allows k ∧ (k = .attach ∨ k = .status ∨ e = c.epoch)

/-- The session context after an admission at `moment` (R93). -/
def Session.refreshed (c : Session) (moment : Nat) : Session :=
  if c.state = .attached then { c with deadline := some (moment + c.period * 10000) } else c

/-- A payload is not two bytes that hold a heartbeat period of 1 to 1000 (R95, R98). -/
abbrev periodMalformed (p : List Byte) : Prop :=
  p.length ≠ 2 ∨ 256 * (p.getD 0 0#8).toNat + (p.getD 1 0#8).toNat = 0
    ∨ 1000 < 256 * (p.getD 0 0#8).toNat + (p.getD 1 0#8).toNat

/-! ## The claim table -/

/-- The record `r` in HELD: all else as it was, and no deadline (R4, R45, R56). -/
def Record.inHeld (r : Record) : Record :=
  { r with state := .held, deadline := none, span := 0 }

/-- The record `r` in YIELDING since `moment`: all else as it was, its yield end one window of 1 ms units ahead (R53, R143). -/
def Record.inYielding (r : Record) (moment window : Nat) : Record :=
  { r with state := .yielding, deadline := some (moment + window * 1000), span := window }

/-- The WAITING record `r` granted at `moment`: in SETTLING, its settle end one settle time of 10 µs units ahead, or in HELD where the
settle time is 0; all else as it was (R35, R43, R44, R143). -/
def Record.granted (r : Record) (moment settle : Nat) : Record :=
  if settle = 0 then r.inHeld
  else { r with state := .settling, deadline := some (moment + settle * 10), span := settle }

/-- The record `r'` of `t` is `r` passed between HELD and YIELDING by the event that led to `t` (R53, R56). -/
abbrev Record.passes (t : State) (r r' : Record) : Prop :=
  (r.state = .held ∧ r' = r.inYielding t.now t.profile.yieldWindow) ∨ (r.state = .yielding ∧ r' = r.inHeld)

/-- A record of `s` is live-holding and names line `l` (R5). -/
abbrev State.lineHeld (s : State) (l : LineId) : Prop :=
  ∃ i, ∃ r ∈ s.slots.get i, r.state ≠ .waiting ∧ r.names l = true

/-- A WAITING record of `s` names line `l`. -/
abbrev State.lineWanted (s : State) (l : LineId) : Prop :=
  ∃ i, ∃ r ∈ s.slots.get i, r.state = .waiting ∧ r.names l = true

/-- Record `w` stands before record `r` in the waiting order (R27). -/
abbrev Record.before (w r : Record) : Prop :=
  r.priority < w.priority ∨ (w.priority = r.priority ∧ w.entry < r.entry)

/-- The record `r` of slot `i` is grantable (R31): on each of its lines no record is live-holding and no WAITING record stands
before it. -/
abbrev State.canGrant (s : State) (i : SlotId) (r : Record) : Prop :=
  ∀ l, r.names l = true → ¬ s.lineHeld l
    ∧ ∀ j, ∀ w ∈ s.slots.get j, j ≠ i → w.state = .waiting → w.names l = true → ¬ w.before r

/-- The record `r` is an eligible preemptor (R50). -/
abbrev State.isPreemptor (s : State) (i : SlotId) (r : Record) : Prop :=
  r.state = .waiting ∧ r.preempt = true
    ∧ ∀ l, r.names l = true →
        (∀ j, ∀ w ∈ s.slots.get j, j ≠ i → w.state = .waiting → w.names l = true → r.before w)
          ∧ ∀ j, ∀ h ∈ s.slots.get j, h.state ≠ .waiting → h.names l = true → h.priority < r.priority

/-- Some eligible preemptor names a line of record `r` (R51). -/
abbrev State.facesPreemptor (s : State) (r : Record) : Prop :=
  ∃ j, ∃ w ∈ s.slots.get j, s.isPreemptor j w ∧ ∃ l, w.names l = true ∧ r.names l = true

/-- The lowest-numbered FREE slot of `s` is `i` (R1). -/
abbrev State.lowestFree (s : State) (i : SlotId) : Prop :=
  s.slots.get i = none ∧ ∀ j, j < i → s.slots.get j ≠ none

/-- Host `n` has the record `r` in slot `i` under ticket `tk`, and no other (R11). -/
abbrev State.owns (s : State) (n : HostId) (tk : Byte) (i : SlotId) (r : Record) : Prop :=
  r ∈ s.slots.get i ∧ r.owner = n ∧ r.ticket = tk ∧ ∀ j, ∀ w ∈ s.slots.get j, w.owner = n → w.ticket = tk → j = i

/-- Host `n` has no record under ticket `tk`. -/
abbrev State.ownsNone (s : State) (n : HostId) (tk : Byte) : Prop :=
  ∀ j, ∀ w ∈ s.slots.get j, w.owner = n → w.ticket ≠ tk

/-- No slot gains a record from `s` to `t`; each record left was granted whole, or passed between HELD and YIELDING, or stands exactly
as it was, its deadline with it (R2, R4, R24, R35, R55). -/
abbrev recordsRemain (s t : State) : Prop :=
  ∀ j, ∀ r' ∈ t.slots.get j, ∃ r ∈ s.slots.get j,
    r' = r ∨ (r.state = .waiting ∧ r' = r.granted t.now t.profile.settle) ∨ r.passes t r'

/-- No record is lost from `s` to `t` but those that satisfy `gone`. -/
abbrev recordsLost (s t : State) (gone : SlotId → Record → Prop) : Prop :=
  ∀ j, ∀ r ∈ s.slots.get j, (gone j r ↔ t.slots.get j = none)

/-- Outside slot `i`, from `s` to `t`, records stand exactly as they were or pass between HELD and YIELDING (R51, R55). -/
abbrev onlyYields (s t : State) (i : SlotId) : Prop :=
  ∀ j, j ≠ i → t.slots.get j = s.slots.get j
    ∨ ∃ r ∈ s.slots.get j, ∃ r' ∈ t.slots.get j, r.passes t r'

/-- Line `l` has the same live-holding record in `s` and `t`, standing exactly as it was and alone on the line, or has none in
either (R5). -/
abbrev lineStands (s t : State) (l : LineId) : Prop :=
  (∃ i, ∃ r ∈ s.slots.get i, r.state ≠ .waiting ∧ r.names l = true ∧ t.slots.get i = some r
      ∧ ∀ j, ∀ w ∈ s.slots.get j, j ≠ i → w.state ≠ .waiting → w.names l = false)
    ∨ (¬ s.lineHeld l ∧ ¬ t.lineHeld l)

/-- From `s` to `t`, the cell of every line that stands so is as it was: it had no report (R73). -/
abbrev cellsStand (s t : State) : Prop :=
  ∀ l, lineStands s t l → t.cells.get l = s.cells.get l

/-- From `s` to `t`, a host other than `n` whose records all stand as they were has its board as it was: only the passages of its
records reach it (R48, R53, R56, R107). -/
abbrev otherBoardsFollow (s t : State) (n : HostId) : Prop :=
  ∀ h, h ≠ n → (∀ j, ∀ r ∈ s.slots.get j, r.owner = h → t.slots.get j = some r) → t.boards.get h = s.boards.get h

/-- The sampling side of every cell is the same in `s` and `t`: no holder report samples (R73, R76). -/
abbrev samplesKept (s t : State) : Prop :=
  ∀ l, (t.cells.get l).raw = (s.cells.get l).raw ∧ (t.cells.get l).filtered = (s.cells.get l).filtered
    ∧ (t.cells.get l).run = (s.cells.get l).run

/-- Cell `l` has no holder and presents its rest state, unparked, blanking stopped (R70, R73). -/
abbrev State.atRest (s : State) (l : LineId) : Prop :=
  (s.cells.get l).holder = none ∧ (s.cells.get l).applied = none ∧ (s.cells.get l).parked = false
    ∧ (s.cells.get l).blanking = none ∧ (s.cells.get l).presented = (s.profile.lines.get l).rest.pin

/-- Cell `l` presents the setting `st` of the record of slot `i` from `moment` on: holder, setting, blanking (R71, R73, R79). -/
abbrev State.applies (s : State) (l : LineId) (x : Holder) (st : Setting) (moment : Nat) : Prop :=
  (s.cells.get l).holder = some x ∧ (s.cells.get l).applied = some st ∧ (s.cells.get l).parked = false
    ∧ (s.cells.get l).presented = st.pin ∧ (s.cells.get l).blanking = some (moment + 16)

/-- The ticket notice on host `h`'s board for ticket `tk`, if one is pending. -/
def State.noticeOf (s : State) (h : HostId) (tk : Byte) : Option NoticeKind :=
  ((s.boards.get h).notices.find? fun x => x.1 == tk).map fun x => x.2

/-- From `s` to `t`, host `h`'s board keeps the line flags of every line that no freed record of the host named (R7, R111), and the
ticket notice of every ticket whose records all stand exactly as they were, that of an orphan notice among them (R107, R108). -/
abbrev entriesStand (s t : State) (h : HostId) : Prop :=
  (∀ l, (∀ i, ∀ r ∈ s.slots.get i, r.owner = h → r.names l = true → t.slots.get i ≠ none) →
      has (t.boards.get h).change l = has (s.boards.get h).change l
        ∧ has (t.boards.get h).overrun l = has (s.boards.get h).overrun l
        ∧ has (t.boards.get h).fault l = has (s.boards.get h).fault l)
    ∧ ∀ tk, (∀ i, ∀ r ∈ s.slots.get i, r.owner = h → r.ticket = tk → t.slots.get i = some r) →
        t.noticeOf h tk = s.noticeOf h tk

/-- From `s` to `t`, host `h`'s board keeps its session flags, and its entries as `entriesStand` says (R107, R108, R112). -/
abbrev boardStands (s t : State) (h : HostId) : Prop :=
  (t.boards.get h).flags = (s.boards.get h).flags ∧ entriesStand s t h

/-- No line flag of the record's lines stands on a board (R7, step 4). -/
abbrev Board.clearOf (b : Board) (r : Record) : Prop :=
  ∀ l, r.names l = true → has b.change l = false ∧ has b.overrun l = false ∧ has b.fault l = false

/-- No notice, line or flag stands on a board (R106). -/
abbrev Board.bare (b : Board) : Prop :=
  b.notices = [] ∧ b.change = 0#48 ∧ b.overrun = 0#48 ∧ b.fault = 0#48 ∧ b.flags = SessionFlags.clear

/-! ## The checks of a CLAIM -/

/-- How many bytes of a CLAIM's payload stand before its line entries: ticket, flags, wait limit if present, line count (R161). -/
def claimHead (p : List Byte) : Nat :=
  if (p.getD 1 0#8).getLsbD 1 then 5 else 3

/-- The line count of a CLAIM's payload (R161). -/
def claimCount (p : List Byte) : Nat :=
  (p.getD (claimHead p - 1) 0#8).toNat

/-- A CLAIM's payload fails check 1, as R16 lists the cases. -/
abbrev claimMalformed (p : List Byte) : Prop :=
  p.length < claimHead p ∨ p.length ≠ claimHead p + 2 * claimCount p ∨ p.getD 0 0#8 = 0#8
    ∨ claimCount p = 0 ∨ 8 < claimCount p
    ∨ (∃ j, j < claimCount p ∧
        (48 ≤ (p.getD (claimHead p + 2 * j) 0#8).toNat ∨ 5 ≤ (p.getD (claimHead p + 2 * j + 1) 0#8).toNat % 8
          ∨ ∃ i, i < j ∧ p.getD (claimHead p + 2 * i) 0#8 = p.getD (claimHead p + 2 * j) 0#8))
    ∨ ((p.getD 1 0#8).getLsbD 0 = true ∧ (p.getD 1 0#8).getLsbD 1 = true ∧ p.getD 2 0#8 = 0#8 ∧ p.getD 3 0#8 = 0#8)

/-- The claim `a` names line `l`. -/
abbrev ClaimArgs.names (a : ClaimArgs) (l : LineId) : Prop :=
  ∃ e ∈ a.entries, e.line = l

/-- The claim `a` of host `n` names line `l`, which does not permit the host (R17). -/
abbrev State.forbids (s : State) (n : HostId) (a : ClaimArgs) (l : LineId) : Prop :=
  a.names l ∧ has (s.profile.lines.get l).mask n = false

/-- The claim `a` names a line of the bonded group `g`, and not all four (R18). -/
abbrev State.splits (s : State) (a : ClaimArgs) (g : GroupId) : Prop :=
  has s.profile.bonded g = true ∧ (∃ l : LineId, l.val / 4 = g.val ∧ a.names l)
    ∧ ∃ l : LineId, l.val / 4 = g.val ∧ ¬ a.names l

/-- Ticket `tk` is in use for host `n` (R19). -/
abbrev State.ticketTaken (s : State) (n : HostId) (tk : Byte) : Prop :=
  ¬ s.ownsNone n tk ∨ (s.noticeOf n tk).isSome = true

/-- The number of records of host `n` (R10). -/
def State.countOf (s : State) (n : HostId) : Nat :=
  (List.finRange 32).countP fun i => match s.slots.get i with | some r => r.owner == n | none => false

/-- The number of orphan notices of host `n` (R11). -/
def State.orphansOf (s : State) (n : HostId) : Nat :=
  (s.boards.get n).notices.countP fun x =>
    !(List.finRange 32).any fun i => match s.slots.get i with | some r => r.owner == n && r.ticket == x.1 | none => false

/-- The claim `a` of host `n` passes checks 2 to 7 of R15. -/
abbrev State.passes (s : State) (n : HostId) (a : ClaimArgs) : Prop :=
  (∀ l, ¬ s.forbids n a l) ∧ (∀ g, ¬ s.splits a g) ∧ ¬ s.ticketTaken n a.ticket
    ∧ s.countOf n < (s.profile.hosts.get n).quota ∧ s.countOf n + s.orphansOf n < 32
    ∧ ∃ i, s.slots.get i = none

/-- The arriving claim `a` of host `n` is grantable (R32). -/
abbrev State.grantsArrival (s : State) (n : HostId) (a : ClaimArgs) : Prop :=
  ∀ l, a.names l → ¬ s.lineHeld l
    ∧ ∀ j, ∀ w ∈ s.slots.get j, w.state = .waiting → w.names l = true → w.priority < (s.profile.hosts.get n).priority

/-- The WAITING record a claim `a` of host `n` makes at `moment`, with entry number `m` and its wait end, if a limit is stored, one
wait limit of 10 ms units ahead (R2, R40, R143). -/
def State.recordFor (s : State) (n : HostId) (a : ClaimArgs) (m moment : Nat) : Record where
  state := .waiting
  owner := n
  ticket := a.ticket
  priority := (s.profile.hosts.get n).priority
  entry := m
  lines := a.entries
  preempt := a.preempt
  waitLimit := if a.limit = some 0 then none else a.limit
  deadline := if a.limit = some 0 then none else a.limit.map fun w => moment + w * 10000
  span := a.limit.getD 0

/-- The records that stand before `r` in the queue of line `l` (R29). -/
def State.aheadOf (s : State) (r : Record) (l : LineId) : Nat :=
  (List.finRange 32).countP fun j =>
    match s.slots.get j with
    | some w => w.state == .waiting && w.names l
        && (decide (r.priority < w.priority) || (w.priority == r.priority && decide (w.entry < r.entry)))
    | none => false

/-- The queue position `p` of `r` (R22): 1 plus the greatest number of records ahead of it in any of its queues. -/
abbrev State.standsAt (s : State) (r : Record) (p : Nat) : Prop :=
  (∀ l, r.names l = true → s.aheadOf r l + 1 ≤ p) ∧ ∃ l, r.names l = true ∧ p = s.aheadOf r l + 1

/-! ## Lines -/

/-- The cells of record `r` in slot `i` know it: each line has it as holder, and its entry as applied setting (R69); and the record
names each line once (R3). -/
abbrev State.cellsMatch (s : State) (i : SlotId) (r : Record) : Prop :=
  (r.lines.map fun e => e.line).Nodup
    ∧ ∀ e ∈ r.lines, (s.cells.get e.line).holder = some { slot := i, owner := r.owner, ticket := r.ticket, state := r.state }
        ∧ (s.cells.get e.line).applied = some e.setting

/-- The cell `c` becomes `c'` when setting `st` replaces its applied setting at `moment` (R71, R84, R85): a parked cell stores it; an
unparked one presents it, and blanks where mode or effective level changed. -/
abbrev Cell.retunes (c c' : Cell) (st : Setting) (moment : Nat) : Prop :=
  (c.applied = none ∧ c' = c)
    ∨ ∃ old ∈ c.applied,
        if c.parked = true ∨ Setting.driveOf old = Setting.driveOf st then c' = { c with applied := some st }
        else c' = { c with applied := some st, presented := st.pin, blanking := some (moment + 16) }

/-- The entry at position `p` of a record's line list (R3). -/
def Record.entryAt (r : Record) (p : Nat) : Option LineEntry := r.lines[p]?

/-- The line list of `r` with the setting at each position `p` changed by `f p`. -/
def Record.linesWith (r : Record) (f : Nat → Setting → Setting) : List LineEntry :=
  (List.range r.lines.length).filterMap fun p => (r.entryAt p).map fun e => { e with setting := f p e.setting }

/-- A payload fails check 1 of R83 for its kind (R84, R85, R86). -/
abbrev lineMalformed (k : Kind) (p : List Byte) : Prop :=
  (k = .setLevels ∧ (p.length ≠ 3 ∨ p.getD 0 0#8 = 0#8 ∨ p.getD 1 0#8 = 0#8))
    ∨ (k = .reconfigure ∧ (p.length < 2 ∨ p.getD 0 0#8 = 0#8 ∨ p.getD 1 0#8 = 0#8 ∨ 8 < (p.getD 1 0#8).toNat
        ∨ p.length ≠ 2 + 2 * (p.getD 1 0#8).toNat))
    ∨ (k = .clearFault ∧ ((p.length ≠ 1 ∧ p.length ≠ 2) ∨ p.getD 0 0#8 = 0#8 ∨ (p.length = 2 ∧ p.getD 1 0#8 = 0#8)))

/-- The positions a line request names: the bits of a position set, or the position bytes of a RECONFIGURE (R84, R85, R86). -/
abbrev namesPosition (k : Kind) (p : List Byte) (x : Nat) : Prop :=
  (k = .setLevels ∧ (p.getD 1 0#8).getLsbD x = true)
    ∨ (k = .reconfigure ∧ ∃ j, j < (p.getD 1 0#8).toNat ∧ (p.getD (2 + 2 * j) 0#8).toNat = x)
    ∨ (k = .clearFault ∧ p.length = 2 ∧ (p.getD 1 0#8).getLsbD x = true)

/-- A payload fails check 3 of R83 for a record of `count` lines. -/
abbrev positionsBad (k : Kind) (p : List Byte) (count : Nat) : Prop :=
  (∃ x, x < 256 ∧ namesPosition k p x ∧ count ≤ x)
    ∨ (k = .reconfigure ∧ ∃ j, j < (p.getD 1 0#8).toNat ∧
        (5 ≤ (p.getD (3 + 2 * j) 0#8).toNat % 8 ∨ ∃ i, i < j ∧ p.getD (2 + 2 * i) 0#8 = p.getD (2 + 2 * j) 0#8))

/-- A named position of `r` stands in an input mode (R83, check 5). -/
abbrev Record.inputAt (r : Record) (p : List Byte) (l : LineId) : Prop :=
  ∃ x ∈ r.lines.zipIdx, (p.getD 1 0#8).getLsbD x.2 = true ∧ x.1.line = l
    ∧ x.1.setting.mode ≠ .openDrain ∧ x.1.setting.mode ≠ .pushPull

/-- A named position of `r` is parked (R83, check 6). -/
abbrev State.parkedAt (s : State) (r : Record) (p : List Byte) (l : LineId) : Prop :=
  ∃ x ∈ r.lines.zipIdx, (p.getD 1 0#8).getLsbD x.2 = true ∧ x.1.line = l ∧ (s.cells.get l).parked = true

/-- The first check of R83 that the request of kind `k` fails, on the record `r` of slot `i` where the issuer has one: its status
and payload. -/
abbrev State.lineRefused (s : State) (k : Kind) (n : HostId) (p : List Byte) (st : Status) (pl : List Byte) : Prop :=
  (lineMalformed k p ∧ st = .badArgument ∧ pl = [])
    ∨ (¬ lineMalformed k p ∧ s.ownsNone n (p.getD 0 0#8) ∧ st = .noSuchClaim ∧ pl = [])
    ∨ (¬ lineMalformed k p ∧ ∃ i, ∃ r ∈ s.slots.get i, s.owns n (p.getD 0 0#8) i r ∧
        ((positionsBad k p r.lines.length ∧ st = .badArgument ∧ pl = [])
          ∨ (¬ positionsBad k p r.lines.length ∧ r.state ≠ .held ∧ r.state ≠ .yielding ∧ st = .wrongState ∧ pl = [])
          ∨ (¬ positionsBad k p r.lines.length ∧ (r.state = .held ∨ r.state = .yielding) ∧ k = .setLevels
              ∧ r.lines.Pairwise (fun a b => a.line < b.line)
              ∧ ((∃ l, r.inputAt p l ∧ (∀ m, m < l → ¬ r.inputAt p m) ∧ st = .wrongMode ∧ pl = [BitVec.ofNat 8 l.val])
                ∨ ((∀ l, ¬ r.inputAt p l) ∧ ∃ l, s.parkedAt r p l ∧ (∀ m, m < l → ¬ s.parkedAt r p m) ∧ st = .lineFault
                    ∧ pl = [BitVec.ofNat 8 l.val])))))

/-! ## The profile -/

/-- A payload fails check 3 of R124 for its kind (R125, R128, R129, R132, R147). -/
abbrev editMalformed (k : Kind) (p : List Byte) : Prop :=
  (k = .setLineProfile ∧ (p.length ≠ 1 + 2 * (p.getD 0 0#8).toNat ∨ p.getD 0 0#8 = 0#8 ∨ 8 < (p.getD 0 0#8).toNat
      ∨ ∃ j, j < (p.getD 0 0#8).toNat ∧ (48 ≤ (p.getD (1 + 2 * j) 0#8).toNat ∨ 5 ≤ (p.getD (2 + 2 * j) 0#8).toNat / 16 % 8
          ∨ ∃ i, i < j ∧ p.getD (1 + 2 * i) 0#8 = p.getD (1 + 2 * j) 0#8)))
    ∨ (k = .setBond ∧ (p.length ≠ 2 ∨ 12 ≤ (p.getD 0 0#8).toNat ∨ 2 ≤ (p.getD 1 0#8).toNat))
    ∨ (k = .setHostProfile ∧ (p.length ≠ 4 ∨ 4 ≤ (p.getD 0 0#8).toNat ∨ 4 ≤ (p.getD 1 0#8).toNat ∨ (p.getD 2 0#8).toNat = 0
        ∨ 32 < (p.getD 2 0#8).toNat ∨ 2 ≤ (p.getD 3 0#8).toNat))
    ∨ (k = .setTiming ∧ (p.length ≠ 4 ∨ 256 * (p.getD 1 0#8).toNat + (p.getD 2 0#8).toNat = 0
        ∨ 1000 < 256 * (p.getD 1 0#8).toNat + (p.getD 2 0#8).toNat ∨ (p.getD 3 0#8).toNat = 0 ∨ 100 < (p.getD 3 0#8).toNat))
    ∨ (k = .commitProfile ∧ p ≠ [])

/-- Checks 1 to 3 of R124, in their order: the status of the first that fails. -/
abbrev State.editRefused (s : State) (k : Kind) (n : HostId) (p : List Byte) (st : Status) : Prop :=
  (has s.profile.admin n = false ∧ st = .notAdmin)
    ∨ (has s.profile.admin n = true ∧ s.profile.state = .committed ∧ st = .profileLocked)
    ∨ (has s.profile.admin n = true ∧ s.profile.state = .opened ∧ editMalformed k p ∧ st = .badArgument)

/-- An admin's edit of kind `k` passes checks 1 to 3 of R124. -/
abbrev State.editPasses (s : State) (k : Kind) (n : HostId) (p : List Byte) : Prop :=
  has s.profile.admin n = true ∧ s.profile.state = .opened ∧ ¬ editMalformed k p

/-- The setting byte a SET LINE PROFILE payload gives line `l` (R125). -/
def lineByte (p : List Byte) (l : LineId) : Option Byte :=
  ((List.range (p.getD 0 0#8).toNat).find? fun j => (p.getD (1 + 2 * j) 0#8).toNat == l.val).map fun j => p.getD (2 + 2 * j) 0#8

/-- A WAITING record names a line from whose mask the edit removes its owner (R126). -/
abbrev State.denies (s : State) (p : List Byte) (r : Record) : Prop :=
  r.state = .waiting ∧ ∃ l, r.names l = true ∧
    ∃ b ∈ lineByte p l, has (s.profile.lines.get l).mask r.owner = true ∧ b.getLsbD r.owner.val = false

/-! ## Invariants -/

/-- R70: while RESETn is high, every line presents the claim of a HELD or YIELDING holder when it is not parked, and its rest
state otherwise; while RESETn is low, FLOAT, with no holder, and every rest state is its default. -/
abbrev State.presentsRight (s : State) : Prop :=
  ∀ l, if s.resetn then
      (s.cells.get l).presented =
        (match (s.cells.get l).holder, (s.cells.get l).applied with
         | some h, some st =>
           if (h.state = .held ∨ h.state = .yielding) ∧ (s.cells.get l).parked = false then st.pin
           else (s.profile.lines.get l).rest.pin
         | _, _ => (s.profile.lines.get l).rest.pin)
    else (s.cells.get l).presented = .float ∧ (s.cells.get l).holder = none ∧ (s.profile.lines.get l).rest = .float

/-- R114: ATTN is asserted exactly while the board is not empty; while RESETn is low every board is empty (R120). -/
abbrev State.attnRight (s : State) : Prop :=
  ∀ h, ((s.boards.get h).attn = true ↔ ¬ (s.boards.get h).bare) ∧ (s.resetn = false → (s.boards.get h).bare)

/-- R106, R110: notices stand in ascending ticket order, and a line is in the overrun set only while in the change set. -/
abbrev State.boardsInForm (s : State) : Prop :=
  ∀ h, (s.boards.get h).notices.Pairwise (fun x y => x.1.toNat < y.1.toNat)
    ∧ ∀ l, has (s.boards.get h).overrun l = true → has (s.boards.get h).change l = true

/-- R30, R69: a cell's holder is the live-holding record that names its line, and where that record is HELD or YIELDING the applied
setting is its entry; a cell without such a holder keeps neither setting nor park; a record names each line once; and while RESETn
is low the table is empty (R1). -/
abbrev State.cellsFollow (s : State) : Prop :=
  (∀ i, ∀ r ∈ s.slots.get i, (r.lines.map fun e => e.line).Nodup ∧ s.resetn = true
      ∧ (r.state ≠ .waiting → ∀ e ∈ r.lines,
          (s.cells.get e.line).holder = some { slot := i, owner := r.owner, ticket := r.ticket, state := r.state }
            ∧ (r.state ≠ .settling → (s.cells.get e.line).applied = some e.setting)))
    ∧ ∀ l, (∀ x ∈ (s.cells.get l).holder, ∃ r ∈ s.slots.get x.slot, r.state ≠ .waiting ∧ r.names l = true)
        ∧ ((∃ x ∈ (s.cells.get l).holder, x.state = .held ∨ x.state = .yielding)
            ∨ ((s.cells.get l).applied = none ∧ (s.cells.get l).parked = false))

/-- R111: a line flag stands on a host's board only for a line the host holds in a HELD or YIELDING record. -/
abbrev State.flagsForHeldLines (s : State) : Prop :=
  ∀ h l, (has (s.boards.get h).change l || has (s.boards.get h).overrun l || has (s.boards.get h).fault l) = true →
    ∃ i, ∃ r ∈ s.slots.get i, r.owner = h ∧ r.names l = true ∧ (r.state = .held ∨ r.state = .yielding)

/-- R30: each line is named by at most one live-holding record. -/
abbrev State.oneHolder (s : State) : Prop :=
  ∀ i, ∀ r ∈ s.slots.get i, ∀ j, ∀ w ∈ s.slots.get j, r.state ≠ .waiting → w.state ≠ .waiting →
    (∃ l, r.names l = true ∧ w.names l = true) → i = j

/-- R36: no WAITING record is grantable. -/
abbrev State.noneGrantable (s : State) : Prop :=
  ∀ i, ∀ r ∈ s.slots.get i, r.state = .waiting → ¬ s.canGrant i r

/-- Entry numbers are distinct (R14). -/
abbrev State.entriesDistinct (s : State) : Prop :=
  ∀ i, ∀ r ∈ s.slots.get i, ∀ j, ∀ w ∈ s.slots.get j, r.entry = w.entry → i = j

/-- R50, R52: the set kept is that of the eligible preemptors; a YIELDING record faces one, and a HELD record none. -/
abbrev State.yieldsRight (s : State) : Prop :=
  (∀ i, i ∈ s.eligible ↔ ∃ r ∈ s.slots.get i, s.isPreemptor i r)
    ∧ ∀ i, ∀ r ∈ s.slots.get i, (r.state = .yielding → s.facesPreemptor r) ∧ (r.state = .held → ¬ s.facesPreemptor r)

/-- R4: which records hold a deadline. -/
abbrev State.deadlinesRight (s : State) : Prop :=
  ∀ i, ∀ r ∈ s.slots.get i,
    (r.state = .waiting → r.deadline.isSome = r.waitLimit.isSome)
      ∧ (r.state = .settling ∨ r.state = .yielding → r.deadline.isSome = true)
      ∧ (r.state = .held → r.deadline = none)

/-- R4, R143, R146, R147: every interval is in its range, so that no report of a time left exceeds its own: the timing values of the
profile, the periods of the sessions, and the interval each record's deadline was set by (a field of the model's own, log 23). -/
abbrev State.intervalsRight (s : State) : Prop :=
  s.profile.settle ≤ 255 ∧ (1 ≤ s.profile.yieldWindow ∧ s.profile.yieldWindow ≤ 1000)
    ∧ (1 ≤ s.profile.voteWindow ∧ s.profile.voteWindow ≤ 100)
    ∧ (∀ h, (s.sessions.get h).period ≤ 1000)
    ∧ ∀ i, ∀ r ∈ s.slots.get i,
        (r.state = .waiting → r.span = r.waitLimit.getD 0 ∧ r.span ≤ 65535)
          ∧ (r.state = .settling → 1 ≤ r.span ∧ r.span ≤ 255)
          ∧ (r.state = .yielding → 1 ≤ r.span ∧ r.span ≤ 1000)
          ∧ (r.state = .held → r.span = 0)

/-- R9: every record belongs to a host whose session is ATTACHED. -/
abbrev State.recordsAttached (s : State) : Prop :=
  ∀ i, ∀ r ∈ s.slots.get i, (s.sessions.get r.owner).state = .attached

/-- R90: a heartbeat deadline is held exactly while ATTACHED. -/
abbrev State.heartbeatsRight (s : State) : Prop :=
  ∀ h, ((s.sessions.get h).deadline.isSome = true ↔ (s.sessions.get h).state = .attached)

/-- R10: no host owns more records than its quota. -/
abbrev State.withinQuota (s : State) : Prop :=
  ∀ h, s.countOf h ≤ (s.profile.hosts.get h).quota

/-- R11: no two records of a host share a ticket, no two notices of a board do, and the records and orphan notices of a host
total at most 32. -/
abbrev State.capacityKept (s : State) : Prop :=
  (∀ i, ∀ r ∈ s.slots.get i, ∀ j, ∀ w ∈ s.slots.get j, r.owner = w.owner → r.ticket = w.ticket → i = j)
    ∧ ∀ h, ((s.boards.get h).notices.map fun x => x.1).Nodup ∧ s.countOf h + s.orphansOf h ≤ 32

/-- R133: while a vote runs the profile is COMMITTED, the deadline is held, the required set is the ATTACHED hosts and the voted set
a part of it; while none runs there is no deadline and both sets are empty. A context's vote flag says whether it is in the voted
set. -/
abbrev State.voteRight (s : State) : Prop :=
  (∀ h, (s.sessions.get h).voted = has s.vote.voted h)
    ∧ if s.vote.running then
        s.profile.state = .committed ∧ s.vote.deadline.isSome = true
          ∧ ∀ h, (has s.vote.required h = true ↔ (s.sessions.get h).state = .attached)
              ∧ (has s.vote.voted h = true → has s.vote.required h = true)
      else s.vote.deadline = none ∧ s.vote.required = 0#4 ∧ s.vote.voted = 0#4

/-- R135: a running vote is not decided: its voted set is not the required set whole. -/
abbrev State.voteUndecided (s : State) : Prop :=
  s.vote.running = true → s.vote.voted ≠ s.vote.required

/-- R122, R129: the admin mask is never empty. -/
abbrev State.hasAdmin (s : State) : Prop := s.profile.admin ≠ 0#4

end Sys2Proof.Machine
end

