-- ==== Sys2Proof/Certificates/Slice0/Obligations.lean ====
section
/-! DEFINITION. The statements for the provers. Each says, in the terms of Sys2Proof/Safety.lean, what a rule of spec/ says a
command does, or what every step keeps. -/

open Sys2Proof Sys2Proof.Machine

/-! ## The machine as a whole -/

/-- A step takes the command at the front of the queue and runs `exec` on it with the queue's rest. -/
def Obligations.StepRunsTheFrontCommand : Prop :=
  ∀ (c : Instr) (rest : List Instr) (s : State),
    step { s with pending := c :: rest } = exec c { s with pending := rest }

/-- Every command answers a next state from every state: the part has no fault that stops it (R161: a request it cannot carry out
is answered with a status). A command whose event the part cannot meet, such as the expiry of a deadline that was discarded or is
not held (R4, R140), a tick in reset or a request not in hand, changes nothing but the time, by its `dt`; that it answers a next
state is the model's choice (log 6), and so is that the queue behind a command, a hardware reset too, stands as it was (log 20,
log 21). -/
def Obligations.EveryCommandAnswersNext : Prop :=
  ∀ (c : Instr) (s : State),
    (∃ t, exec c s = .next t ∧ t.pending = s.pending)
      ∧ (s.cannotMeet c → exec c s = .next (s.elapse c.elapsed))

/-- The state right after reset meets every invariant that the steps keep. Its first sample, low on every line, is the model's
choice (log 9). -/
def Obligations.ResetMeetsEveryInvariant : Prop :=
  State.reset.presentsRight ∧ State.reset.attnRight ∧ State.reset.boardsInForm ∧ State.reset.capacityKept
    ∧ State.reset.cellsFollow ∧ State.reset.flagsForHeldLines ∧ State.reset.noneGrantable ∧ State.reset.entriesDistinct
    ∧ State.reset.yieldsRight ∧ State.reset.deadlinesRight ∧ State.reset.heartbeatsRight ∧ State.reset.recordsAttached
    ∧ State.reset.withinQuota ∧ State.reset.hasAdmin ∧ State.reset.voteRight ∧ State.reset.voteUndecided
    ∧ State.reset.intervalsRight

/-! ## The RESETn pin -/

/-- HARDWARE_RESET: every block takes its reset values at once and every line presents FLOAT (R1, R74, R90, R104, R106, R120, R121,
R133, R149). RESETN_RISE: every cell takes the values of R69, its first sample setting the raw and the filtered level, and the
sampling tick starts, its first tick within one period (R74, R141); nothing else changes. That the first sample comes with the
rise is the model's reading (log 18). -/
def Obligations.ResetPinTakesEveryDefault : Prop :=
  ∀ (s : State) (dt : Nat) (levels : LineSet),
    (
      ∃ t, exec (.hardwareReset dt) s = .next t
        ∧ t.resetn = false ∧ t.now = s.now + dt ∧ t.pending = s.pending
        ∧ (∀ n, t.ports.get n =
            { link := .idle, buffer := [], request := none, response := none, replay := false, saved := none,
              signature := none, dropped := false, sdo := [] })
        ∧ (∀ h, t.sessions.get h = { state := .detached, epoch := 0#16, period := 0, deadline := none, voted := false })
        ∧ (∀ i, t.slots.get i = none) ∧ t.eligible = [] ∧ t.ctcLast = 3 ∧ t.lcaLast = 3 ∧ t.puLast = 3
        ∧ (∀ l, (t.cells.get l).presented = .float ∧ (t.cells.get l).holder = none ∧ (t.cells.get l).applied = none
            ∧ (t.cells.get l).parked = false ∧ (t.cells.get l).blanking = none)
        ∧ (∀ h, (t.boards.get h).bare ∧ (t.boards.get h).attn = false)
        ∧ (∀ l, t.profile.lines.get l = { mask := 0xF#4, rest := .float })
        ∧ (∀ h, t.profile.hosts.get h = { priority := 0, quota := 8 })
        ∧ t.profile.bonded = 0#12 ∧ t.profile.admin = 0x1#4 ∧ t.profile.settle = 10 ∧ t.profile.yieldWindow = 50
        ∧ t.profile.voteWindow = 20 ∧ t.profile.state = .opened
        ∧ t.vote = { running := false, deadline := none, required := 0#4, voted := 0#4 })
    ∧ (
      s.resetn = false →
      ∃ t, exec (.resetnRise dt levels) s = .next t
        ∧ t = { s with now := s.now + dt, resetn := true, nextTick := t.nextTick, cells := t.cells }
        ∧ t.now < t.nextTick ∧ t.nextTick ≤ t.now + 2
        ∧ ∀ l, t.cells.get l =
            { holder := none, applied := none, parked := false, presented := .float, raw := has levels l,
              filtered := has levels l, run := 0, blanking := none, blankedTo := (t.cells.get l).blankedTo })

/-! ## The link ports -/

/-- What a host writes as R152 lays it out (kind, epoch high byte first, sequence, length, payload, CRC), each byte's bits most
significant first (R150), is what the port reads: no bit of a request frame is dropped or moved. -/
def Obligations.RequestFramesReadAsWritten : Prop :=
  ∀ (f : Frame),
    encodeFrame f =
        [f.kind] ++ twoBytes f.epoch.toNat ++ [f.seq, BitVec.ofNat 8 f.payload.length] ++ f.payload ++ [f.crc]
      ∧ (∀ i, i < 8 * (encodeFrame f).length →
          (bitsOf (encodeFrame f))[i]? = some (((encodeFrame f).getD (i / 8) 0#8).getLsbD (7 - i % 8)))
      ∧ (f.proper → frameOfBits (bitsOf (encodeFrame f)) = .good f)

/-- The CRC-8 of R154: a register that starts at 0 and takes each bit as the rule says; a byte taken whole gives the same result;
the bytes a request's CRC covers; and the rule's own check, the STATUS request whose CRC byte is 0x77. -/
def Obligations.CrcFollowsItsGenerator : Prop :=
  crc8 [] = 0#8
    ∧ (∀ (bs : List Byte) (b : Byte), crc8 (bs ++ [b]) = (bitsOfByte b).foldl crcBit (crc8 bs))
    ∧ (∀ (reg : Byte) (bit : Bool),
        crcBit reg bit = if (reg.getLsbD 7 != bit) = true then (reg <<< 1) ^^^ 0x07#8 else reg <<< 1)
    ∧ (∀ (reg b : Byte), (bitsOfByte b).foldl crcBit reg = (List.replicate 8 false).foldl crcBit (reg ^^^ b))
    ∧ (∀ (f : Frame), f.covered =
        [f.kind, f.epoch.extractLsb' 8 8, f.epoch.extractLsb' 0 8, f.seq, BitVec.ofNat 8 f.payload.length] ++ f.payload)
    ∧ (∀ (r : Response), r.bytes =
        [BitVec.ofNat 8 r.status.number, r.seq, BitVec.ofNat 8 r.payload.length] ++ r.payload
          ++ [crc8 ([BitVec.ofNat 8 r.status.number, r.seq, BitVec.ofNat 8 r.payload.length] ++ r.payload)])
    ∧ crc8 [0x01#8, 0x00#8, 0x00#8, 0x01#8, 0x00#8] = 0x77#8

/-- REQUEST_FRAME, malformed: the port answers FRAME_ERROR with the reason of the first check of R153 that fails and the fourth
byte received as its echo, saves it with no signature, so that no later frame repeats it, and nothing else in the part changes
(R153). That the request buffer keeps the bytes received after the check is the model's reading (log 8). -/
def Obligations.MalformedFrameAnswered : Prop :=
  ∀ (s : State) (dt : Nat) (n : HostId) (bs : List Byte) (rest : List Bool) (reason : Byte),
    s.resetn = true → (s.ports.get n).link = .idle → rest.length < 8 → frameFault bs rest = some reason →
    ∃ t, exec (.requestFrame dt n false (bitsOf bs ++ rest)) s = .next t
      ∧ t = { s.elapse dt with ports := t.ports }
      ∧ t.ports.get n =
          { (s.ports.get n).received bs rest with
            link := .answered, request := none, replay := false, signature := none
            response := some { status := .frameError, seq := bs.getD 3 0#8, payload := [reason] }
            saved := some { status := .frameError, seq := bs.getD 3 0#8, payload := [reason] } }
      ∧ (∀ m, m ≠ n → t.ports.get m = s.ports.get m)
      ∧ ∀ f, ¬ (t.ports.get n).repeats f

/-- DROPPED (R151, R159): a write in PENDING or ANSWERED sets it, and nothing else in the part changes but the record of SDO, which
shifts 1s. It stays set through every other event until a read has shifted a status byte out whole, or a hardware reset comes. (An
IGNORED_TRANSACTION command whose bits hold a known opener, which no well-formed one does, is the write or read it opens, R150.) -/
def Obligations.WriteDroppedWhileBusy : Prop :=
  ∀ (s : State) (dt : Nat) (n : HostId) (bits : List Bool) (c : Instr) (u : State),
    (s.resetn = true → (s.ports.get n).link = .pending ∨ (s.ports.get n).link = .answered →
      ∃ t, exec (.requestFrame dt n false bits) s = .next t
        ∧ t = { s.elapse dt with ports := t.ports }
        ∧ t.ports.get n = { s.ports.get n with dropped := true, sdo := List.replicate (8 + bits.length) true }
        ∧ ∀ m, m ≠ n → t.ports.get m = s.ports.get m)
    ∧ (exec c s = .next u →
      (u.ports.get n).dropped =
        match c with
        | .hardwareReset _ => false
        | .requestFrame _ m early _ =>
          (s.ports.get n).dropped || decide (m = n ∧ s.resetn = true ∧ early = false
            ∧ ((s.ports.get n).link = .pending ∨ (s.ports.get n).link = .answered))
        | .readTransaction _ m early clocks =>
          (s.ports.get n).dropped && !decide (m = n ∧ s.resetn = true ∧ early = false ∧ 8 ≤ clocks)
        | .ignoredTransaction _ m bits =>
          ((s.ports.get n).dropped || decide (m = n ∧ s.resetn = true ∧ bits.take 8 = bitsOf [0x3C#8]
              ∧ ((s.ports.get n).link = .pending ∨ (s.ports.get n).link = .answered)))
            && !decide (m = n ∧ s.resetn = true ∧ bits.take 8 = bitsOf [0xC3#8] ∧ 16 ≤ bits.length)
        | _ => (s.ports.get n).dropped)

/-- REQUEST_FRAME, handed on (R92, R93, R156): a proper frame of a known kind that repeats no saved request and that the Session
Unit admits leaves the port PENDING with the request in hand. A kind of another block has then been admitted and the heartbeat
refreshed; a kind of the Session Unit's own is refreshed and handled in its own step (the model's split, log 4). That the request
buffer keeps the frame after the check is the model's reading (log 8). -/
def Obligations.FrameHandedOn : Prop :=
  ∀ (s : State) (dt : Nat) (n : HostId) (f : Frame) (k : Kind),
    s.resetn = true → (s.ports.get n).link = .idle → f.proper → f.kind = BitVec.ofNat 8 k.number →
    ¬ (s.ports.get n).repeats f → (s.sessions.get n).admits k f.epoch →
    ∃ t, exec (.requestFrame dt n false (bitsOf (encodeFrame f))) s = .next t
      ∧ t = { s.elapse dt with ports := t.ports, sessions := t.sessions }
      ∧ t.ports.get n =
          { (s.ports.get n).received (encodeFrame f) [] with
            link := .pending
            request := some { kind := k, epoch := f.epoch, seq := f.seq, payload := f.payload, crc := f.crc
                              admitted := if k.owner = .sessionUnit then none else some (s.sessions.get n).state } }
      ∧ (∀ m, m ≠ n → t.ports.get m = s.ports.get m)
      ∧ t.sessions.get n =
          (if k.owner = .sessionUnit then s.sessions.get n else (s.sessions.get n).refreshed (s.now + dt))
      ∧ ∀ m, m ≠ n → t.sessions.get m = s.sessions.get m

/-- REQUEST_FRAME, answered without being handed on (R92, R156): a kind the table does not list is answered UNKNOWN_KIND by the
port; a kind the session state does not allow NOT_ATTACHED or LAPSED, and a wrong epoch STALE_EPOCH, by the Session Unit. The
payload is empty, the response is saved with the frame's signature, and nothing else in the part changes: no refresh. That the
request buffer keeps the frame after the check is the model's reading (log 8). -/
def Obligations.FrameRefused : Prop :=
  ∀ (s : State) (dt : Nat) (n : HostId) (f : Frame) (st : Status),
    s.resetn = true → (s.ports.get n).link = .idle → f.proper → ¬ (s.ports.get n).repeats f →
    ((∀ k : Kind, f.kind ≠ BitVec.ofNat 8 k.number) ∧ st = .unknownKind)
      ∨ (∃ k : Kind, f.kind = BitVec.ofNat 8 k.number ∧
          ((¬ (s.sessions.get n).state.allows k ∧ (s.sessions.get n).state = .detached ∧ st = .notAttached)
            ∨ (¬ (s.sessions.get n).state.allows k ∧ (s.sessions.get n).state = .lapsed ∧ st = .lapsed)
            ∨ ((s.sessions.get n).state.allows k ∧ ¬ (s.sessions.get n).admits k f.epoch ∧ st = .staleEpoch))) →
    ∃ t, exec (.requestFrame dt n false (bitsOf (encodeFrame f))) s = .next t
      ∧ t = { s.elapse dt with ports := t.ports }
      ∧ t.ports.get n =
          { (s.ports.get n).received (encodeFrame f) [] with
            link := .answered, request := none, replay := false
            response := some { status := st, seq := f.seq, payload := [] }
            saved := some { status := st, seq := f.seq, payload := [] }
            signature := some { kind := f.kind, epoch := f.epoch, seq := f.seq, crc := f.crc } }
      ∧ ∀ m, m ≠ n → t.ports.get m = s.ports.get m

/-- REQUEST_FRAME, repeated (R155): a frame whose kind, epoch, sequence and CRC byte equal the signature of a saved response is
answered by that response with the replay mark set, whatever its payload; the saved response and its signature stay, and nothing
else changes: no admission, no refresh, no block. Any other frame is not replayed: it is handed on, or answered by a new response
saved with the frame's signature. That the request buffer keeps the frame after the check is the model's reading (log 8). -/
def Obligations.RepeatedRequestReplayed : Prop :=
  ∀ (s : State) (dt : Nat) (n : HostId) (f : Frame),
    s.resetn = true → (s.ports.get n).link = .idle → f.proper →
    ∃ t, exec (.requestFrame dt n false (bitsOf (encodeFrame f))) s = .next t
      ∧ (if (s.ports.get n).repeats f then
          t = { s.elapse dt with ports := t.ports }
            ∧ t.ports.get n =
              { (s.ports.get n).received (encodeFrame f) [] with
                link := .answered, replay := true, response := (s.ports.get n).saved }
            ∧ ∀ m, m ≠ n → t.ports.get m = s.ports.get m
        else
          (t.ports.get n).link = .pending
            ∨ ((t.ports.get n).link = .answered ∧ (t.ports.get n).replay = false
              ∧ (t.ports.get n).saved = (t.ports.get n).response
              ∧ (t.ports.get n).signature = some { kind := f.kind, epoch := f.epoch, seq := f.seq, crc := f.crc }))

/-- READ_TRANSACTION (R157, R158, R159): after the opener's 1s come the link status byte and, in ANSWERED, the response frame,
then 1s, as far as the host clocks. DROPPED is cleared by a whole status byte, the response is consumed by its last bit, and
nothing else changes. -/
def Obligations.ReadShiftsStatusAndResponse : Prop :=
  ∀ (s : State) (dt : Nat) (n : HostId) (clocks : Nat),
    s.resetn = true →
    ∃ t, ∃ sb : Byte, exec (.readTransaction dt n false clocks) s = .next t
      ∧ t = { s.elapse dt with ports := t.ports }
      ∧ (∀ m, m ≠ n → t.ports.get m = s.ports.get m)
      ∧ sb.getLsbD 0 = decide ((s.ports.get n).link = .answered)
      ∧ sb.getLsbD 1 = decide ((s.ports.get n).link = .pending)
      ∧ sb.getLsbD 2 = (s.ports.get n).dropped
      ∧ sb.getLsbD 3 = (decide ((s.ports.get n).link = .answered) && (s.ports.get n).replay)
      ∧ (sb.getLsbD 4 = true ↔ ¬ (s.boards.get n).bare)
      ∧ sb.getLsbD 5 = false ∧ sb.getLsbD 6 = false ∧ sb.getLsbD 7 = false
      ∧ t.ports.get n =
          (match (s.ports.get n).link, (s.ports.get n).response with
            | .answered, some r =>
              { s.ports.get n with
                dropped := (s.ports.get n).dropped && decide (clocks < 8)
                link := if 8 + 8 * (4 + r.payload.length) ≤ clocks then .idle else .answered
                response := if 8 + 8 * (4 + r.payload.length) ≤ clocks then none else some r
                replay := if 8 + 8 * (4 + r.payload.length) ≤ clocks then false else (s.ports.get n).replay
                sdo := List.replicate 8 true ++ (bitsOf
                    (sb :: ([BitVec.ofNat 8 r.status.number, r.seq, BitVec.ofNat 8 r.payload.length] ++ r.payload
                      ++ [crc8 ([BitVec.ofNat 8 r.status.number, r.seq, BitVec.ofNat 8 r.payload.length] ++ r.payload)]))
                  ++ List.replicate clocks true).take clocks }
            | _, _ =>
              { s.ports.get n with
                dropped := (s.ports.get n).dropped && decide (clocks < 8)
                sdo := List.replicate 8 true ++ (bitsOf [sb] ++ List.replicate clocks true).take clocks })

/-- The opener decides the transaction (R150). One with another opener than 0x3C and 0xC3, or with fewer than eight bits, and any that
meets RESETn low or whose CSn fell before RESETn rose, changes no port state: only the model's record of SDO, 1s where an
IGNORED_TRANSACTION ends with RESETn high, empty otherwise; what SDO did in a transaction begun or cut off in reset is the model's
choice (log 14). Whatever row its bits come in, 0x3C opens the write of the bits that follow and 0xC3 a
read of as many clocks, whatever SDI carries. -/
def Obligations.IgnoredTransactionsChangeNothing : Prop :=
  ∀ (s : State) (c : Instr) (dt : Nat) (n : HostId) (bits : List Bool) (early : Bool) (clocks : Nat),
    ((c = .ignoredTransaction dt n bits ∧ bits.take 8 ≠ bitsOf [0x3C#8] ∧ bits.take 8 ≠ bitsOf [0xC3#8])
      ∨ ((c = .requestFrame dt n early bits ∨ c = .readTransaction dt n early clocks) ∧ (s.resetn = false ∨ early = true)) →
    ∃ t, exec c s = .next t
      ∧ t = { s.elapse dt with ports := t.ports }
      ∧ t.ports.get n =
          { s.ports.get n with
            sdo := if c = .ignoredTransaction dt n bits ∧ s.resetn = true then List.replicate bits.length true else [] }
      ∧ ∀ m, m ≠ n → t.ports.get m = s.ports.get m)
    ∧ exec (.ignoredTransaction dt n (bitsOf [0x3C#8] ++ bits)) s = exec (.requestFrame dt n false bits) s
    ∧ exec (.ignoredTransaction dt n (bitsOf [0xC3#8] ++ bits)) s = exec (.readTransaction dt n false bits.length) s

/-! ## Taking requests -/

/-- The choice among links (R12, R83, R123): each of the CTC, the LCA and the PU takes the first presenting link after the one it
served last, in the cyclic order LP0, LP1, LP2, LP3, LP0; where one link presents, that one. The link whose request is taken,
answered or refused, becomes the one its block served last, and the other blocks' stand. -/
def Obligations.ArbitersAreCyclic : Prop :=
  (∀ (s : State) (o : Owner) (n last : HostId),
    (o = .claimTable ∧ last = s.ctcLast) ∨ (o = .lineCells ∧ last = s.lcaLast) ∨ (o = .profileUnit ∧ last = s.puLast) →
    (s.chosen o = some n ↔
      (∃ q, s.waits n q ∧ q.kind.owner = o)
        ∧ ∀ m, (∃ q, s.waits m q ∧ q.kind.owner = o) → n - (last + 1) ≤ m - (last + 1)))
    ∧ ∀ (s : State) (dt : Nat) (n : HostId) (q : Request) (k : Kind) (c : Instr),
      (k, c) ∈ [(Kind.claim, Instr.claim dt), (.release, .release dt), (.queryClaim, .queryClaim dt),
        (.setLevels, .setLevels dt), (.reconfigure, .reconfigure dt), (.clearFault, .clearFault dt),
        (.readLines, .readLines dt), (.queryLine, .queryLine dt), (.readProfile, .readProfile dt),
        (.setLineProfile, .setLineProfile dt), (.setBond, .setBond dt), (.setHostProfile, .setHostProfile dt),
        (.setTiming, .setTiming dt), (.commitProfile, .commitProfile dt), (.reopenVote, .reopenVote dt),
        (.clearAll, .clearAll dt)] →
      s.offers k n q →
      ∃ t, exec c s = .next t
        ∧ t.ctcLast = (if k ∈ [.claim, .release, .queryClaim] then n else s.ctcLast)
        ∧ t.lcaLast = (if k ∈ [.setLevels, .reconfigure, .clearFault, .readLines, .queryLine] then n else s.lcaLast)
        ∧ t.puLast = (if k ∈ [.readProfile, .setLineProfile, .setBond, .setHostProfile, .setTiming, .commitProfile, .reopenVote,
            .clearAll] then n else s.puLast)

/-- The recheck of R94 (R13, R83, R115, R123): a block that takes a request whose issuer is no longer ATTACHED under the request's
epoch answers STALE_EPOCH, LAPSED or NOT_ATTACHED, and nothing changes but the port and the block's turn. The one kind handled
in LAPSED, FETCH NOTICES under the lapsed epoch, is not refused. And a request of the Session Unit's own kinds that its session no
longer admits when its row is taken (a HEARTBEAT or DETACH in hand when the session lapses, R92, R102) is refused NOT_ATTACHED,
LAPSED or STALE_EPOCH, with no refresh and nothing changed but the port; that it is judged there is the model's split (log 4).
STATUS and ATTACH are admitted in every state. -/
def Obligations.OvertakenRequestsRefused : Prop :=
  (∀ (s : State) (dt : Nat) (n : HostId) (q : Request) (k : Kind) (c : Instr) (st : Status),
    (k, c) ∈ [(Kind.claim, Instr.claim dt), (.release, .release dt), (.queryClaim, .queryClaim dt),
      (.setLevels, .setLevels dt), (.reconfigure, .reconfigure dt), (.clearFault, .clearFault dt),
      (.readLines, .readLines dt), (.queryLine, .queryLine dt), (.fetchNotices, .fetchNotices dt n),
      (.readProfile, .readProfile dt), (.setLineProfile, .setLineProfile dt), (.setBond, .setBond dt),
      (.setHostProfile, .setHostProfile dt), (.setTiming, .setTiming dt), (.commitProfile, .commitProfile dt),
      (.reopenVote, .reopenVote dt), (.clearAll, .clearAll dt)] →
    s.resetn = true → s.waits n q → q.kind = k → k = .fetchNotices ∨ s.chosen k.owner = some n →
    ((s.sessions.get n).state = .attached ∧ q.epoch ≠ (s.sessions.get n).epoch ∧ st = .staleEpoch)
      ∨ ((s.sessions.get n).state = .lapsed ∧ (k ≠ .fetchNotices ∨ q.epoch ≠ (s.sessions.get n).epoch) ∧ st = .lapsed)
      ∨ ((s.sessions.get n).state = .detached ∧ st = .notAttached) →
    ∃ t, exec c s = .next t ∧ onlyAnswers s t dt k n q st [])
    ∧ ∀ (s : State) (dt : Nat) (n : HostId) (q : Request) (k : Kind) (c : Instr) (st : Status),
      (k, c) ∈ [(Kind.status, Instr.status dt n), (.attach, .attach dt n), (.detach, .detach dt n),
        (.heartbeat, .heartbeat dt n)] →
      s.resetn = true → s.waits n q → q.kind = k →
      (¬ (s.sessions.get n).state.allows k ∧ (s.sessions.get n).state = .detached ∧ st = .notAttached)
        ∨ (¬ (s.sessions.get n).state.allows k ∧ (s.sessions.get n).state = .lapsed ∧ st = .lapsed)
        ∨ ((s.sessions.get n).state.allows k ∧ ¬ (s.sessions.get n).admits k q.epoch ∧ st = .staleEpoch) →
      ∃ t, exec c s = .next t ∧ t = { s.elapse dt with ports := t.ports } ∧ posts s t n q st []

/-! ## Sessions -/

/-- STATUS (R103): the report of the session and of the host's place in the part; the time left is that to the deadline its own
refresh replaced, never more than the period less one (R146): that it is so where no time has passed since that deadline was set is
the model's choice (log 23). Nothing else changes but the refresh of an ATTACHED session (R93). -/
def Obligations.StatusReports : Prop :=
  ∀ (s : State) (dt : Nat) (n : HostId) (q : Request),
    s.resetn = true → s.waits n q → q.kind = .status → q.payload = [] →
    ∃ t, exec (.status dt n) s = .next t
      ∧ t = { s.elapse dt with ports := t.ports, sessions := t.sessions }
      ∧ t.sessions.get n = (s.sessions.get n).refreshed (s.now + dt)
      ∧ (∀ h, h ≠ n → t.sessions.get h = s.sessions.get h)
      ∧ posts s t n q .ok
          ([BitVec.ofNat 8 n.val,
            (match (s.sessions.get n).state with | .detached => 0#8 | .attached => 1#8 | .lapsed => 2#8)]
            ++ twoBytes (s.sessions.get n).epoch.toNat ++ twoBytes (s.sessions.get n).period
            ++ twoBytes (match (s.sessions.get n).state, (s.sessions.get n).deadline with
                | .attached, some d => min ((d - (s.now + dt)) / 10000) ((s.sessions.get n).period - 1)
                | _, _ => 0)
            ++ [BitVec.ofNat 8 (s.countOf n), BitVec.ofNat 8 (s.boards.get n).notices.length,
                BitVec.ofNat 8 ((List.finRange 32).countP fun i => (s.slots.get i).isNone),
                (if s.profile.state = .committed then 1#8 else 0#8) ||| (if s.vote.running then 2#8 else 0#8)
                  ||| (if (s.sessions.get n).voted then 4#8 else 0#8)])

/-- ATTACH from DETACHED or LAPSED (R91, R95, R97, R135): the board is cleared, the epoch advances with 65535 followed by 1, the
period is taken, the deadline is one period ahead; a running vote gains the host unvoted, and VOTE_OPEN is posted to it. Nothing
else changes. -/
def Obligations.AttachBeginsASession : Prop :=
  ∀ (s : State) (dt : Nat) (n : HostId) (q : Request) (p : Nat),
    s.resetn = true → s.waits n q → q.kind = .attach → (s.sessions.get n).state ≠ .attached →
    1 ≤ p ∧ p ≤ 1000 → q.payload = twoBytes p →
    ∃ t, ∃ e : BitVec 16, exec (.attach dt n) s = .next t
      ∧ e.toNat = (if (s.sessions.get n).epoch.toNat = 65535 then 1 else (s.sessions.get n).epoch.toNat + 1)
      ∧ t = { s.elapse dt with ports := t.ports, sessions := t.sessions, boards := t.boards, vote := t.vote }
      ∧ t.sessions.get n =
          { state := .attached, epoch := e, period := p, deadline := some (s.now + dt + p * 10000), voted := false }
      ∧ (∀ h, h ≠ n → t.sessions.get h = s.sessions.get h ∧ t.boards.get h = s.boards.get h)
      ∧ t.boards.get n =
          { notices := [], change := 0#48, overrun := 0#48, fault := 0#48, attn := s.vote.running
            flags := { SessionFlags.clear with voteOpen := s.vote.running } }
      ∧ t.vote = (if s.vote.running then
            { s.vote with required := s.vote.required ||| bitOf n, voted := s.vote.voted &&& ~~~ bitOf n }
          else s.vote)
      ∧ posts s t n q .ok (twoBytes e.toNat ++ twoBytes p ++
          [if (s.sessions.get n).state = .detached then 0#8 else 2#8])

/-- ATTACH while ATTACHED, a restart (R96, R97, R135): every record of the host is freed with no ticket notice and its lines go to
rest unless a waiting record takes them, the board is cleared, the next epoch begins, and a vote that runs keeps the host as a
member, now unvoted, and sends it VOTE_OPEN. The other hosts' boards keep what no change of their records reaches, and so do the
cells of lines whose holder stands (R73, R107). -/
def Obligations.AttachRestartsASession : Prop :=
  ∀ (s : State) (dt : Nat) (n : HostId) (q : Request) (p : Nat),
    s.resetn = true → s.waits n q → q.kind = .attach → (s.sessions.get n).state = .attached →
    1 ≤ p ∧ p ≤ 1000 → q.payload = twoBytes p → (s.vote.running = true → has s.vote.required n = true) →
    ∃ t, ∃ e : BitVec 16, exec (.attach dt n) s = .next t
      ∧ e.toNat = (if (s.sessions.get n).epoch.toNat = 65535 then 1 else (s.sessions.get n).epoch.toNat + 1)
      ∧ t = { s.elapse dt with
              ports := t.ports, sessions := t.sessions, slots := t.slots, eligible := t.eligible, cells := t.cells
              boards := t.boards, vote := t.vote }
      ∧ t.sessions.get n =
          { state := .attached, epoch := e, period := p, deadline := some (s.now + dt + p * 10000), voted := false }
      ∧ (∀ h, h ≠ n → t.sessions.get h = s.sessions.get h)
      ∧ recordsRemain s t ∧ recordsLost s t (fun _ r => r.owner = n)
      ∧ (∀ i, ∀ r ∈ s.slots.get i, r.owner = n → r.state ≠ .waiting → ∀ l, r.names l = true →
          (∀ j, ∀ w ∈ s.slots.get j, w.state = .waiting → w.names l = true → w.owner = n) ∨ ¬ t.lineHeld l → t.atRest l)
      ∧ cellsStand s t ∧ samplesKept s t ∧ otherBoardsFollow s t n ∧ (∀ h, h ≠ n → boardStands s t h)
      ∧ t.boards.get n =
          { notices := [], change := 0#48, overrun := 0#48, fault := 0#48, attn := s.vote.running
            flags := { SessionFlags.clear with voteOpen := s.vote.running } }
      ∧ t.vote = (if s.vote.running then { s.vote with voted := s.vote.voted &&& ~~~ bitOf n } else s.vote)
      ∧ posts s t n q .ok (twoBytes e.toNat ++ twoBytes p ++ [1#8])

/-- DETACH (R100): the session ends with its epoch and period kept, the board is cleared, and from ATTACHED every record of the
host is freed with no ticket notice. The other hosts' boards keep the entries that no change of their records reaches, and so do
the cells of lines whose holder stands (R73, R107). Where no vote runs, no other session and no other session flag changes, and
the vote stays. -/
def Obligations.DetachEndsASession : Prop :=
  ∀ (s : State) (dt : Nat) (n : HostId) (q : Request),
    s.resetn = true → s.waits n q → q.kind = .detach → (s.sessions.get n).state ≠ .detached →
    q.epoch = (s.sessions.get n).epoch → q.payload = [] →
    ∃ t, exec (.detach dt n) s = .next t
      ∧ t = { s.elapse dt with
              ports := t.ports, sessions := t.sessions, slots := t.slots, eligible := t.eligible, cells := t.cells
              boards := t.boards, vote := t.vote, profile := { s.profile with state := t.profile.state } }
      ∧ t.sessions.get n = { s.sessions.get n with state := .detached, deadline := none, voted := false }
      ∧ (t.boards.get n).bare ∧ (t.boards.get n).attn = false
      ∧ ((s.sessions.get n).state = .attached →
          recordsRemain s t ∧ recordsLost s t (fun _ r => r.owner = n) ∧ cellsStand s t ∧ samplesKept s t
            ∧ (∀ h, h ≠ n → entriesStand s t h)
            ∧ ∀ i, ∀ r ∈ s.slots.get i, r.owner = n → r.state ≠ .waiting → ∀ l, r.names l = true →
                (∀ j, ∀ w ∈ s.slots.get j, w.state = .waiting → w.names l = true → w.owner = n) ∨ ¬ t.lineHeld l → t.atRest l)
      ∧ ((s.sessions.get n).state = .lapsed →
          t.slots = s.slots ∧ t.eligible = s.eligible ∧ t.cells = s.cells ∧ ∀ h, h ≠ n → t.boards.get h = s.boards.get h)
      ∧ (s.vote.running = false ∨ (s.sessions.get n).state = .lapsed →
          t.vote = s.vote ∧ t.profile = s.profile ∧ otherBoardsFollow s t n
            ∧ ∀ h, h ≠ n → t.sessions.get h = s.sessions.get h ∧ (t.boards.get h).flags = (s.boards.get h).flags)
      ∧ posts s t n q .ok (twoBytes (s.sessions.get n).epoch.toNat)

/-- HEARTBEAT (R98): the deadline is one period after the admission, by the new period where the request carries one; nothing else
changes. -/
def Obligations.HeartbeatMovesTheDeadline : Prop :=
  ∀ (s : State) (dt : Nat) (n : HostId) (q : Request) (p : Nat),
    s.resetn = true → s.waits n q → q.kind = .heartbeat → s.current n q.epoch →
    (q.payload = [] ∧ p = (s.sessions.get n).period) ∨ (1 ≤ p ∧ p ≤ 1000 ∧ q.payload = twoBytes p) →
    ∃ t, exec (.heartbeat dt n) s = .next t
      ∧ t = { s.elapse dt with ports := t.ports, sessions := t.sessions }
      ∧ t.sessions.get n = { s.sessions.get n with period := p, deadline := some (s.now + dt + p * 10000) }
      ∧ (∀ h, h ≠ n → t.sessions.get h = s.sessions.get h)
      ∧ posts s t n q .ok (twoBytes (s.sessions.get n).epoch.toNat ++ twoBytes p)

/-- A request of the Session Unit's own kinds with a payload its rule does not allow is answered BAD_ARGUMENT; nothing changes but
the refresh its admission made (R93, R95, R96, R98, R100, R103). -/
def Obligations.SessionRequestsRefuseBadPayloads : Prop :=
  ∀ (s : State) (dt : Nat) (n : HostId) (q : Request) (k : Kind) (c : Instr),
    (k, c) ∈ [(Kind.status, Instr.status dt n), (.attach, .attach dt n), (.detach, .detach dt n),
      (.heartbeat, .heartbeat dt n)] →
    s.resetn = true → s.waits n q → q.kind = k → (s.sessions.get n).admits k q.epoch →
    (k = .attach ∧ periodMalformed q.payload) ∨ (k = .heartbeat ∧ q.payload ≠ [] ∧ periodMalformed q.payload)
      ∨ ((k = .status ∨ k = .detach) ∧ q.payload ≠ []) →
    ∃ t, exec c s = .next t
      ∧ t = { s.elapse dt with ports := t.ports, sessions := t.sessions }
      ∧ t.sessions.get n = (s.sessions.get n).refreshed (s.now + dt)
      ∧ (∀ h, h ≠ n → t.sessions.get h = s.sessions.get h)
      ∧ posts s t n q .badArgument []

/-- HEARTBEAT_EXPIRY (R99): the session lapses with its epoch and period kept, every record of the host is freed with no ticket
notice, and its board holds LAPSED_HEARTBEAT alone, ATTN asserted. No port changes (R160). The other hosts' boards keep the
entries that no change of their records reaches, and so do the cells of lines whose holder stands (R73, R107). That the time
becomes the deadline, or stays where it is past it, is the model's choice (log 2). -/
def Obligations.HeartbeatExpiryLapses : Prop :=
  ∀ (s : State) (h : HostId) (d : Nat),
    s.resetn = true → (s.sessions.get h).state = .attached → (s.sessions.get h).deadline = some d →
    ∃ t, exec (.heartbeatExpiry h) s = .next t
      ∧ t = { s with
              now := max s.now d, sessions := t.sessions, slots := t.slots, eligible := t.eligible, cells := t.cells
              boards := t.boards, vote := t.vote, profile := { s.profile with state := t.profile.state } }
      ∧ t.sessions.get h = { s.sessions.get h with state := .lapsed, deadline := none, voted := false }
      ∧ t.boards.get h =
          { notices := [], change := 0#48, overrun := 0#48, fault := 0#48, attn := true
            flags := { SessionFlags.clear with lapsedHeartbeat := true } }
      ∧ recordsRemain s t ∧ recordsLost s t (fun _ r => r.owner = h) ∧ cellsStand s t ∧ samplesKept s t
      ∧ (∀ m, m ≠ h → entriesStand s t m)
      ∧ (∀ i, ∀ r ∈ s.slots.get i, r.owner = h → r.state ≠ .waiting → ∀ l, r.names l = true →
          (∀ j, ∀ w ∈ s.slots.get j, w.state = .waiting → w.names l = true → w.owner = h) ∨ ¬ t.lineHeld l → t.atRest l)
      ∧ (s.vote.running = false →
          t.vote = s.vote ∧ t.profile = s.profile ∧ otherBoardsFollow s t h
            ∧ ∀ m, m ≠ h → t.sessions.get m = s.sessions.get m ∧ (t.boards.get m).flags = (s.boards.get m).flags)

/-- A host that leaves while a vote runs, by DETACH or by heartbeat expiry (R97, R135): it leaves the required set and its vote is
dropped; then an empty required set ends the vote with no notice to any host, a required set that has voted whole completes it, with
PROFILE_OPENED to every attached host, and otherwise it runs on, with no notice. Of the other hosts' sessions and session flags, no
more changes than that and the vote flags of an ended vote. -/
def Obligations.DepartureDecidesTheVote : Prop :=
  ∀ (s : State) (c : Instr) (n : HostId) (dt d : Nat) (q : Request),
    s.resetn = true → s.voteRight → s.vote.running = true → (s.sessions.get n).state = .attached →
    (c = .detach dt n ∧ s.waits n q ∧ q.kind = .detach ∧ q.epoch = (s.sessions.get n).epoch ∧ q.payload = [])
      ∨ (c = .heartbeatExpiry n ∧ (s.sessions.get n).deadline = some d) →
    ∃ t, exec c s = .next t
      ∧ (if s.vote.required &&& ~~~ bitOf n = 0#4 then
          t.vote = { running := false, deadline := none, required := 0#4, voted := 0#4 } ∧ t.profile = s.profile
            ∧ ∀ h, (t.sessions.get h).voted = false
                ∧ (h ≠ n → t.sessions.get h = { s.sessions.get h with voted := false }
                    ∧ (t.boards.get h).flags = (s.boards.get h).flags)
        else if s.vote.voted &&& ~~~ bitOf n = s.vote.required &&& ~~~ bitOf n then
          t.vote = { running := false, deadline := none, required := 0#4, voted := 0#4 }
            ∧ t.profile = { s.profile with state := .opened }
            ∧ ∀ h, (t.sessions.get h).voted = false
                ∧ (h ≠ n → t.sessions.get h = { s.sessions.get h with voted := false }
                    ∧ (t.boards.get h).flags = { (s.boards.get h).flags with
                        profileOpened :=
                          (s.boards.get h).flags.profileOpened || decide ((s.sessions.get h).state = .attached) })
        else
          t.vote = { s.vote with required := s.vote.required &&& ~~~ bitOf n, voted := s.vote.voted &&& ~~~ bitOf n }
            ∧ t.profile = s.profile
            ∧ ∀ h, h ≠ n → t.sessions.get h = s.sessions.get h ∧ (t.boards.get h).flags = (s.boards.get h).flags)
      ∧ (t.boards.get n).flags =
          { SessionFlags.clear with lapsedHeartbeat := decide (c = .heartbeatExpiry n) }

/-- The epoch of a host changes at its ATTACH alone, by one, with 65535 followed by 1, and the session is then ATTACHED; and at
hardware reset, to 0 (R90, R91). So 0 is left for good until the next hardware reset. -/
def Obligations.EpochChangesAtAttachAlone : Prop :=
  ∀ (c : Instr) (s t : State) (h : HostId),
    exec c s = .next t → (t.sessions.get h).epoch ≠ (s.sessions.get h).epoch →
    ((∃ dt, c = .attach dt h) ∧ (t.sessions.get h).state = .attached
        ∧ (t.sessions.get h).epoch.toNat =
          (if (s.sessions.get h).epoch.toNat = 65535 then 1 else (s.sessions.get h).epoch.toNat + 1))
      ∨ ((∃ dt, c = .hardwareReset dt) ∧ (t.sessions.get h).epoch = 0#16)

/-! ## The claim table -/

/-- The payload of CLAIM (R16): check 1 fails, with BAD_ARGUMENT, exactly in the cases of R16, and otherwise the claim is what
R161 lays out, bits 2 to 7 of the flags ignored, its entries ascending by line (R3). -/
def Obligations.ClaimPayloadsRead : Prop :=
  ∀ (p : List Byte) (s : State) (dt : Nat) (n : HostId) (q : Request),
    (claimArgs p = none ↔ claimMalformed p)
      ∧ (∀ a ∈ claimArgs p,
          a.ticket = p.getD 0 0#8 ∧ a.preempt = (p.getD 1 0#8).getLsbD 0
            ∧ a.limit = (if (p.getD 1 0#8).getLsbD 1 then some (256 * (p.getD 2 0#8).toNat + (p.getD 3 0#8).toNat) else none)
            ∧ a.entries.Pairwise (fun x y => x.line < y.line)
            ∧ ∀ l st, (⟨l, st⟩ : LineEntry) ∈ a.entries ↔
                ∃ j, j < claimCount p ∧ (p.getD (claimHead p + 2 * j) 0#8).toNat = l.val
                  ∧ p.getD (claimHead p + 2 * j + 1) 0#8 = BitVec.ofNat 8 st.number)
      ∧ (s.takes .claim n q → claimMalformed q.payload →
          ∃ t, exec (.claim dt) s = .next t ∧ onlyAnswers s t dt .claim n q .badArgument [])

/-- CLAIM, refused: the first of the seven checks of R15 that fails gives the answer, with the lowest line or group where the check
names one (R16 to R20); a try-only claim that is not grantable is answered BUSY (R21). Nothing changes but the port and the turn. -/
def Obligations.ClaimRefused : Prop :=
  ∀ (s : State) (dt : Nat) (n : HostId) (q : Request) (st : Status) (pl : List Byte),
    s.takes .claim n q →
    (claimMalformed q.payload ∧ st = .badArgument ∧ pl = [])
      ∨ (∃ a ∈ claimArgs q.payload,
          (∃ l, s.forbids n a l ∧ (∀ m, m < l → ¬ s.forbids n a m) ∧ st = .notPermitted ∧ pl = [BitVec.ofNat 8 l.val])
            ∨ ((∀ l, ¬ s.forbids n a l)
                ∧ ((∃ g, s.splits a g ∧ (∀ m, m < g → ¬ s.splits a m) ∧ st = .bondSplit ∧ pl = [BitVec.ofNat 8 g.val])
                  ∨ ((∀ g, ¬ s.splits a g) ∧ pl = []
                      ∧ ((s.ticketTaken n a.ticket ∧ st = .ticketInUse)
                        ∨ (¬ s.ticketTaken n a.ticket ∧ (s.profile.hosts.get n).quota ≤ s.countOf n ∧ st = .quotaExceeded)
                        ∨ (¬ s.ticketTaken n a.ticket ∧ s.countOf n < (s.profile.hosts.get n).quota
                            ∧ 32 ≤ s.countOf n + s.orphansOf n ∧ st = .noticeFull)
                        ∨ (¬ s.ticketTaken n a.ticket ∧ s.countOf n < (s.profile.hosts.get n).quota
                            ∧ s.countOf n + s.orphansOf n < 32 ∧ (∀ i, s.slots.get i ≠ none) ∧ st = .tableFull)
                        ∨ (s.passes n a ∧ ¬ s.grantsArrival n a ∧ a.limit = some 0 ∧ st = .busy)))))) →
    ∃ t, exec (.claim dt) s = .next t ∧ onlyAnswers s t dt .claim n q st pl

/-- CLAIM, granted at once (R1, R2, R5, R14, R21, R32, R43, R44): the record is made in the lowest-numbered FREE slot, in SETTLING
with its settle end, or in HELD where the settle time is 0; its lines know it; no GRANTED is posted; holders it makes yield or
withdraw change between HELD and YIELDING alone. Every board, the issuer's too, keeps what no such passage reaches, and so do the
cells of lines whose holder stands (R73, R107). -/
def Obligations.ClaimGrantedAtOnce : Prop :=
  ∀ (s : State) (dt : Nat) (n : HostId) (q : Request) (a : ClaimArgs) (i : SlotId),
    s.takes .claim n q → claimArgs q.payload = some a → s.passes n a → s.grantsArrival n a → s.lowestFree i →
    ∃ t, ∃ m : Nat, exec (.claim dt) s = .next t
      ∧ t = { s.turn dt .claim n with
              ports := t.ports, slots := t.slots, eligible := t.eligible, cells := t.cells, boards := t.boards }
      ∧ (∀ j, ∀ r ∈ s.slots.get j, r.entry < m)
      ∧ t.slots.get i = some ((s.recordFor n a m (s.now + dt)).granted (s.now + dt) s.profile.settle)
      ∧ onlyYields s t i
      ∧ (∀ e ∈ a.entries,
          if s.profile.settle = 0 then
            t.applies e.line { slot := i, owner := n, ticket := a.ticket, state := .held } e.setting (s.now + dt)
          else
            (t.cells.get e.line).holder = some { slot := i, owner := n, ticket := a.ticket, state := .settling }
              ∧ (t.cells.get e.line).presented = (s.profile.lines.get e.line).rest.pin)
      ∧ (∀ l, ¬ a.names l → ¬ s.lineHeld l → ¬ s.lineWanted l → t.cells.get l = s.cells.get l)
      ∧ cellsStand s t ∧ samplesKept s t ∧ (∀ h, otherBoardsFollow s t h ∧ boardStands s t h)
      ∧ t.noticeOf n a.ticket = none
      ∧ posts s t n q .ok [a.ticket, if s.profile.settle = 0 then 3#8 else 2#8]

/-- CLAIM, queued (R21, R22, R32, R40): the record is made in WAITING with its wait end, and QUEUED carries its queue position.
Where no record was grantable before (R36), the other records pass between HELD and YIELDING alone. Every board, the issuer's too,
keeps what no change of a record reaches, and so do the cells of lines whose holder stands (R73, R107). -/
def Obligations.ClaimQueued : Prop :=
  ∀ (s : State) (dt : Nat) (n : HostId) (q : Request) (a : ClaimArgs) (i : SlotId),
    s.takes .claim n q → claimArgs q.payload = some a → s.passes n a → ¬ s.grantsArrival n a → a.limit ≠ some 0 →
    s.lowestFree i →
    ∃ t, ∃ m p : Nat, exec (.claim dt) s = .next t
      ∧ t = { s.turn dt .claim n with
              ports := t.ports, slots := t.slots, eligible := t.eligible, cells := t.cells, boards := t.boards }
      ∧ (∀ j, ∀ r ∈ s.slots.get j, r.entry < m)
      ∧ t.slots.get i = some (s.recordFor n a m (s.now + dt))
      ∧ (s.entriesDistinct → s.noneGrantable → onlyYields s t i)
      ∧ (∀ l, ¬ s.lineHeld l → ¬ s.lineWanted l → t.cells.get l = s.cells.get l)
      ∧ cellsStand s t ∧ samplesKept s t ∧ (∀ h, otherBoardsFollow s t h ∧ boardStands s t h)
      ∧ t.standsAt (s.recordFor n a m (s.now + dt)) p
      ∧ posts s t n q .queued [a.ticket, BitVec.ofNat 8 p]

/-- RELEASE (R7, R8, R23): the record is freed whatever its state, its notice and its line flags leave the owner's board, its
lines go to rest unless a waiting record takes them, and OK carries the state it was in. No other record is lost. Every board, the
owner's too, keeps its session flags, the flags of other lines and the notices of tickets whose records stand, and the cells of
lines whose holder stands carry on (R73, R107, R108). -/
def Obligations.ReleaseFreesTheRecord : Prop :=
  ∀ (s : State) (dt : Nat) (n : HostId) (q : Request) (tk : Byte) (i : SlotId) (r : Record),
    s.takes .release n q → q.payload = [tk] → tk ≠ 0#8 → s.owns n tk i r →
    ∃ t, exec (.release dt) s = .next t
      ∧ t = { s.turn dt .release n with
              ports := t.ports, slots := t.slots, eligible := t.eligible, cells := t.cells, boards := t.boards }
      ∧ recordsRemain s t ∧ recordsLost s t (fun j _ => j = i)
      ∧ t.noticeOf n tk = none ∧ (t.boards.get n).clearOf r
      ∧ (r.state ≠ .waiting → ∀ l, r.names l = true → ¬ s.lineWanted l ∨ ¬ t.lineHeld l → t.atRest l)
      ∧ (∀ l, (∀ j, ∀ w ∈ s.slots.get j, w.names l = false) → t.cells.get l = s.cells.get l)
      ∧ cellsStand s t ∧ samplesKept s t ∧ otherBoardsFollow s t n ∧ (∀ h, boardStands s t h)
      ∧ posts s t n q .ok [tk,
          match r.state with | .waiting => 1#8 | .settling => 2#8 | .held => 3#8 | .yielding => 4#8]

/-- QUERY_CLAIM (R25, R26): the report of the record, with its queue position while WAITING and its time left while it holds a
deadline, the parked set while HELD or YIELDING, and the eligible bit from the set kept (R50). The time left is never more than the
interval the deadline was set by less one (R146): that it is so where no time has passed since then is the model's choice (log 23).
It changes nothing. -/
def Obligations.QueryClaimReports : Prop :=
  ∀ (s : State) (dt : Nat) (n : HostId) (q : Request) (tk : Byte) (i : SlotId) (r : Record),
    s.takes .queryClaim n q → q.payload = [tk] → tk ≠ 0#8 → s.owns n tk i r → r.lines ≠ [] → s.entriesDistinct →
    ∃ t, ∃ p : Nat, ∃ ps : Byte, exec (.queryClaim dt) s = .next t
      ∧ (r.state = .waiting → s.standsAt r p)
      ∧ (∀ x : Fin 8, ps.getLsbD x.val =
          match r.lines[x.val]? with
          | some e => decide (r.state = .held ∨ r.state = .yielding) && (s.cells.get e.line).parked
          | none => false)
      ∧ onlyAnswers s t dt .queryClaim n q .ok
          ([tk, (match r.state with | .waiting => 1#8 | .settling => 2#8 | .held => 3#8 | .yielding => 4#8),
            BitVec.ofNat 8 r.priority.val,
            (if r.preempt then 1#8 else 0#8)
              ||| (if r.state = .waiting ∧ r.preempt = true ∧ i ∈ s.eligible then 2#8 else 0#8)
              ||| (if r.waitLimit.isSome then 4#8 else 0#8) ||| (if r.deadline.isSome then 8#8 else 0#8)]
            ++ (if r.state = .waiting then [BitVec.ofNat 8 p] else [])
            ++ (match r.waitLimit with | some w => twoBytes w | none => [])
            ++ (match r.deadline with
                | some d => twoBytes (min ((d - (s.now + dt)) /
                    (match r.state with | .waiting => 10000 | .settling => 10 | .yielding => 1000 | .held => 1)) (r.span - 1))
                | none => [])
            ++ [BitVec.ofNat 8 r.lines.length]
            ++ (r.lines.flatMap fun e => [BitVec.ofNat 8 e.line.val, BitVec.ofNat 8 e.setting.number])
            ++ [ps])

/-- SETTLE_END (R45, R48, R54): with no eligible preemptor against it, the record enters HELD, its lines apply its settings and
GRANTED is posted; with one, it passes through HELD to YIELDING, its yield end one window after the settle end, and REVOKE_NOTICE
is posted alone. No other record and no other board changes, and the owner's board keeps all but the ticket's notice. That the
time becomes the settle end, or stays where it is past it, and that blanking and yield end count from there, is the model's choice
(log 2). -/
def Obligations.SettleEndBringsTheClaim : Prop :=
  ∀ (s : State) (i : SlotId) (r : Record) (d : Nat) (faced : Bool),
    s.resetn = true → s.slots.get i = some r → r.state = .settling → r.deadline = some d →
    s.entriesDistinct → s.yieldsRight → (r.lines.map fun e => e.line).Nodup →
    (faced = true ↔ s.facesPreemptor r) →
    ∃ t, exec (.settleEnd i) s = .next t
      ∧ t = { s with now := max s.now d, slots := t.slots, eligible := t.eligible, cells := t.cells, boards := t.boards }
      ∧ t.slots.get i = some
          (if faced then r.inYielding (max s.now d) s.profile.yieldWindow else r.inHeld)
      ∧ (∀ j, j ≠ i → t.slots.get j = s.slots.get j)
      ∧ (∀ e ∈ r.lines, t.applies e.line
          { slot := i, owner := r.owner, ticket := r.ticket, state := if faced then .yielding else .held }
          e.setting (max s.now d))
      ∧ (∀ l, r.names l = false → t.cells.get l = s.cells.get l)
      ∧ samplesKept s t
      ∧ t.noticeOf r.owner r.ticket = some (if faced then .revokeNotice else .granted)
      ∧ boardStands s t r.owner
      ∧ ∀ h, h ≠ r.owner → t.boards.get h = s.boards.get h

/-- YIELD_END (R58) and WAIT_END (R41): the record is freed, REVOKED or WAIT_EXPIRED stands on its owner's board for its ticket,
its line flags are cleared, and lines it held go to rest unless a waiting record takes them. No other record is lost. Every board,
the owner's too, keeps its session flags, the flags of other lines and the notices of tickets whose records stand, and the cells
of lines whose holder stands carry on (R73, R107, R108). That the time becomes the deadline, or stays where it is past it, is the
model's choice (log 2). -/
def Obligations.DeadlinesFreeRecords : Prop :=
  ∀ (s : State) (c : Instr) (i : SlotId) (r : Record) (d : Nat) (k : NoticeKind),
    s.resetn = true → s.owns r.owner r.ticket i r → r.deadline = some d →
    (c = .yieldEnd i ∧ r.state = .yielding ∧ k = .revoked) ∨ (c = .waitEnd i ∧ r.state = .waiting ∧ k = .waitExpired) →
    ∃ t, exec c s = .next t
      ∧ t = { s with now := max s.now d, slots := t.slots, eligible := t.eligible, cells := t.cells, boards := t.boards }
      ∧ recordsRemain s t ∧ recordsLost s t (fun j _ => j = i)
      ∧ t.noticeOf r.owner r.ticket = some k ∧ (t.boards.get r.owner).clearOf r
      ∧ (r.state = .yielding → ∀ l, r.names l = true → ¬ s.lineWanted l ∨ ¬ t.lineHeld l → t.atRest l)
      ∧ (∀ l, (∀ j, ∀ w ∈ s.slots.get j, j ≠ i → w.names l = false) → (r.state = .waiting ∨ r.names l = false) →
          t.cells.get l = s.cells.get l)
      ∧ cellsStand s t ∧ samplesKept s t ∧ otherBoardsFollow s t r.owner ∧ ∀ h, boardStands s t h

/-- A WAITING record that an event leaves in the table and no longer WAITING was granted whole (R34, R35, R37, R48): into SETTLING
with a settle end one settle time ahead and its lines at rest under it, or into HELD with its settings applied and GRANTED posted
where the settle time is 0. -/
def Obligations.WaitersAreGrantedWhole : Prop :=
  ∀ (s t : State) (c : Instr) (i : SlotId) (r r' : Record),
    exec c s = .next t → s.slots.get i = some r → r.state = .waiting → t.slots.get i = some r' → r'.state ≠ .waiting →
    (r.lines.map fun e => e.line).Nodup → s.entriesDistinct →
    (∀ j, ∀ w ∈ s.slots.get j, w.owner = r.owner → w.ticket = r.ticket → j = i) →
    r' = r.granted t.now s.profile.settle
      ∧ ∀ e ∈ r.lines,
          if s.profile.settle = 0 then
            t.applies e.line { slot := i, owner := r.owner, ticket := r.ticket, state := .held } e.setting t.now
              ∧ t.noticeOf r.owner r.ticket = some .granted
          else
            (t.cells.get e.line).holder = some { slot := i, owner := r.owner, ticket := r.ticket, state := .settling }
              ∧ (t.cells.get e.line).presented = (t.profile.lines.get e.line).rest.pin

/-- RELEASE, QUERY_CLAIM, SET_LEVELS, RECONFIGURE and CLEAR_FAULT, refused (R23, R25, R83 to R86): the first check that fails
gives the answer, and nothing changes but the port and the turn. -/
def Obligations.TicketRequestsRefused : Prop :=
  ∀ (s : State) (dt : Nat) (n : HostId) (q : Request) (k : Kind) (c : Instr) (st : Status) (pl : List Byte),
    (k, c) ∈ [(Kind.release, Instr.release dt), (.queryClaim, .queryClaim dt), (.setLevels, .setLevels dt),
      (.reconfigure, .reconfigure dt), (.clearFault, .clearFault dt)] →
    s.takes k n q →
    (if k = .release ∨ k = .queryClaim then
        pl = [] ∧ (((q.payload.length ≠ 1 ∨ q.payload.getD 0 0#8 = 0#8) ∧ st = .badArgument)
          ∨ (q.payload.length = 1 ∧ q.payload.getD 0 0#8 ≠ 0#8 ∧ s.ownsNone n (q.payload.getD 0 0#8) ∧ st = .noSuchClaim))
      else s.lineRefused k n q.payload st pl) →
    ∃ t, exec c s = .next t ∧ onlyAnswers s t dt k n q st pl

/-! ## The lines -/

/-- SET_LEVELS (R84): each named level is written into the record's entry and the cell's applied setting; a line whose level differs
presents it at once and blanks anew, one whose level is the same carries on. Nothing else changes. -/
def Obligations.SetLevelsMovesTheLevels : Prop :=
  ∀ (s : State) (dt : Nat) (n : HostId) (q : Request) (tk ps ls : Byte) (i : SlotId) (r : Record),
    s.takes .setLevels n q → q.payload = [tk, ps, ls] → tk ≠ 0#8 → ps ≠ 0#8 → s.owns n tk i r →
    ps.toNat < 2 ^ r.lines.length → r.state = .held ∨ r.state = .yielding → s.cellsMatch i r →
    (∀ x ∈ r.lines.zipIdx, ps.getLsbD x.2 = true →
      (x.1.setting.mode = .openDrain ∨ x.1.setting.mode = .pushPull) ∧ (s.cells.get x.1.line).parked = false) →
    ∃ t, exec (.setLevels dt) s = .next t
      ∧ t = { s.turn dt .setLevels n with ports := t.ports, slots := t.slots, cells := t.cells }
      ∧ t.slots.get i = some
          { r with lines := r.linesWith fun p st => if ps.getLsbD p then { st with level := ls.getLsbD p } else st }
      ∧ (∀ j, j ≠ i → t.slots.get j = s.slots.get j)
      ∧ (∀ x ∈ r.lines.zipIdx,
          if ps.getLsbD x.2 then
            (s.cells.get x.1.line).retunes (t.cells.get x.1.line) { x.1.setting with level := ls.getLsbD x.2 } (s.now + dt)
          else t.cells.get x.1.line = s.cells.get x.1.line)
      ∧ (∀ l, r.names l = false → t.cells.get l = s.cells.get l)
      ∧ posts s t n q .ok [tk]

/-- RECONFIGURE (R78, R85): each named position takes its whole new setting in the record and in the cell; an unparked line whose
mode or effective level changes presents it at once and blanks; a line set to watch NONE leaves the owner's change and overrun
sets. Nothing else changes. -/
def Obligations.ReconfigureReplacesSettings : Prop :=
  ∀ (s : State) (dt : Nat) (n : HostId) (q : Request) (tk : Byte) (ps : List (Byte × Setting)) (i : SlotId) (r : Record),
    s.takes .reconfigure n q → q.payload = [tk, BitVec.ofNat 8 ps.length] ++ ps.flatMap (fun x => [x.1, BitVec.ofNat 8 x.2.number]) →
    tk ≠ 0#8 → 1 ≤ ps.length ∧ ps.length ≤ 8 → (ps.map fun x => x.1).Nodup → s.owns n tk i r →
    (∀ x ∈ ps, x.1.toNat < r.lines.length) → r.state = .held ∨ r.state = .yielding → s.cellsMatch i r →
    ∃ t, exec (.reconfigure dt) s = .next t
      ∧ t = { s.turn dt .reconfigure n with ports := t.ports, slots := t.slots, cells := t.cells, boards := t.boards }
      ∧ t.slots.get i = some
          { r with lines := r.linesWith fun p st => ((ps.find? fun x => x.1.toNat == p).map fun x => x.2).getD st }
      ∧ (∀ j, j ≠ i → t.slots.get j = s.slots.get j)
      ∧ (∀ x ∈ r.lines.zipIdx,
          (∀ y ∈ ps, y.1.toNat = x.2 → (s.cells.get x.1.line).retunes (t.cells.get x.1.line) y.2 (s.now + dt))
            ∧ ((∀ y ∈ ps, y.1.toNat ≠ x.2) → t.cells.get x.1.line = s.cells.get x.1.line))
      ∧ (∀ l, r.names l = false → t.cells.get l = s.cells.get l)
      ∧ (∀ h, h ≠ n → t.boards.get h = s.boards.get h)
      ∧ (t.boards.get n).notices = (s.boards.get n).notices ∧ (t.boards.get n).fault = (s.boards.get n).fault
      ∧ (t.boards.get n).flags = (s.boards.get n).flags
      ∧ (∀ l,
          if (∃ x ∈ r.lines.zipIdx, x.1.line = l ∧ ∃ y ∈ ps, y.1.toNat = x.2 ∧ y.2.watch = .none) then
            has (t.boards.get n).change l = false ∧ has (t.boards.get n).overrun l = false
          else has (t.boards.get n).change l = has (s.boards.get n).change l
            ∧ has (t.boards.get n).overrun l = has (s.boards.get n).overrun l)
      ∧ posts s t n q .ok [tk]

/-- CLEAR_FAULT (R86): each parked line of the record, among the named ones where a set is given, is unparked, presents its applied
setting and blanks; OK carries the set of positions unparked. The fault set stays as it was, and nothing else changes. -/
def Obligations.ClearFaultUnparks : Prop :=
  ∀ (s : State) (dt : Nat) (n : HostId) (q : Request) (tk ps : Byte) (i : SlotId) (r : Record),
    s.takes .clearFault n q → tk ≠ 0#8 → s.owns n tk i r →
    q.payload = [tk] ∧ ps = 0xFF#8 ∨ q.payload = [tk, ps] ∧ ps ≠ 0#8 ∧ ps.toNat < 2 ^ r.lines.length →
    r.state = .held ∨ r.state = .yielding → s.cellsMatch i r → r.lines.length ≤ 8 →
    ∃ t, ∃ done : Byte, exec (.clearFault dt) s = .next t
      ∧ t = { s.turn dt .clearFault n with ports := t.ports, cells := t.cells }
      ∧ (∀ x : Fin 8, done.getLsbD x.val =
          match r.lines[x.val]? with
          | some e => ps.getLsbD x.val && (s.cells.get e.line).parked
          | none => false)
      ∧ (∀ x ∈ r.lines.zipIdx, t.cells.get x.1.line =
          if done.getLsbD x.2 then
            { s.cells.get x.1.line with
              parked := false, presented := x.1.setting.pin, blanking := some (s.now + dt + 16) }
          else s.cells.get x.1.line)
      ∧ (∀ l, r.names l = false → t.cells.get l = s.cells.get l)
      ∧ posts s t n q .ok [tk, done]

/-- READ_LINES (R76, R87): levels, permitted and held, a level reported only for a line permitted or held. It changes nothing, and
any payload is answered BAD_ARGUMENT. -/
def Obligations.ReadLinesReports : Prop :=
  ∀ (s : State) (dt : Nat) (n : HostId) (q : Request),
    s.takes .readLines n q →
    ∃ t, ∃ lv pm hd : LineSet, exec (.readLines dt) s = .next t
      ∧ (∀ l, has pm l = has (s.profile.lines.get l).mask n
          ∧ has hd l = (match (s.cells.get l).holder with | some x => decide (x.owner = n) | none => false)
          ∧ has lv l = ((has pm l || has hd l) && (s.cells.get l).filtered))
      ∧ (if q.payload = [] then onlyAnswers s t dt .readLines n q .ok (sentLines lv ++ sentLines pm ++ sentLines hd)
        else onlyAnswers s t dt .readLines n q .badArgument [])

/-- QUERY_LINE (R88): the state of a line permitted to the issuer or held by it, its holder's host, the ticket where the holder is
the issuer's, the queue length, the rest state and the bond; NOT_PERMITTED for another line, BAD_ARGUMENT for another payload. It
changes nothing. -/
def Obligations.QueryLineReports : Prop :=
  ∀ (s : State) (dt : Nat) (n : HostId) (q : Request) (l : LineId),
    s.takes .queryLine n q →
    (q.payload = [BitVec.ofNat 8 l.val] ∧ ∀ x ∈ (s.cells.get l).holder, x.state ≠ .waiting)
      ∨ q.payload.length ≠ 1 ∨ 48 ≤ (q.payload.getD 0 0#8).toNat →
    ∃ t, exec (.queryLine dt) s = .next t
      ∧ (if q.payload.length ≠ 1 ∨ 48 ≤ (q.payload.getD 0 0#8).toNat then onlyAnswers s t dt .queryLine n q .badArgument []
        else if has (s.profile.lines.get l).mask n = true ∨ (∃ x ∈ (s.cells.get l).holder, x.owner = n) then
          onlyAnswers s t dt .queryLine n q .ok
            [BitVec.ofNat 8 l.val,
              (match (s.cells.get l).holder with
                | none => 0#8
                | some x => if x.state = .settling then 1#8 else if (s.cells.get l).parked then 4#8
                    else if x.state = .held then 2#8 else 3#8),
              (match (s.cells.get l).holder with | none => 0xFF#8 | some x => BitVec.ofNat 8 x.owner.val),
              (match (s.cells.get l).holder with | some x => if x.owner = n then x.ticket else 0#8 | none => 0#8),
              BitVec.ofNat 8 ((List.finRange 32).countP fun j =>
                match s.slots.get j with | some w => w.state == .waiting && w.names l | none => false),
              (match (s.profile.lines.get l).rest with
                | .float => 0#8 | .pullUp => 1#8 | .pullDown => 2#8 | .driveLow => 3#8 | .driveHigh => 4#8)
                ||| (if s.profile.bonded.getLsbD (l.val / 4) then 0x80#8 else 0#8)]
        else onlyAnswers s t dt .queryLine n q .notPermitted [])

/-- SAMPLING_TICK (R75, R77, R80, R141, R142): all 48 lines are sampled at one moment. The filter takes a level after N samples
that differ; an edge the active watch selects joins the owner's change set, or the overrun set where already there; a checked line
whose filtered level contradicts its drive after blanking is parked, presents rest and joins the fault set. No other state
changes. BLANKING_END (R142): the line's blanking stops at its end, with no report to any block; the moment it ended is kept so
that a tick at that very moment is not compared (the model's field, log 19); that the time becomes the blanking end, or stays
where it is past it, is the model's choice (log 2). -/
def Obligations.SamplingTickFiltersWatchesCompares : Prop :=
  ∀ (s : State) (levels : LineSet) (bl : LineId) (be : Nat),
    (
      s.resetn = true → s.now ≤ s.nextTick →
      ∃ t, ∃ edge park : LineSet, exec (.samplingTick levels) s = .next t
        ∧ t = { s with now := s.nextTick, nextTick := s.nextTick + 2, cells := t.cells, boards := t.boards }
        ∧ (∀ l,
            let c := s.cells.get l
            let c' := t.cells.get l
            let level := has levels l
            let claim := if (∃ x ∈ c.holder, x.state = .held ∨ x.state = .yielding) then c.applied else none
            let len := match claim with | some st => 2 ^ st.filter.val | none => 2
            c'.raw = level ∧ c'.holder = c.holder ∧ c'.applied = c.applied ∧ c'.blankedTo = c.blankedTo
              ∧ (c'.filtered, c'.run) =
                  (if level = c.filtered then (c.filtered, 0) else if len ≤ c.run + 1 then (level, 0) else (c.filtered, c.run + 1))
              ∧ (has edge l = true ↔ c.parked = false ∧ c'.filtered ≠ c.filtered ∧ ∃ st ∈ claim,
                  st.watch = .both ∨ (st.watch = .rising ∧ level = true) ∨ (st.watch = .falling ∧ level = false))
              ∧ (has park l = true ↔ c.parked = false ∧ (∀ e ∈ c.blanking, e < s.nextTick) ∧ c.blankedTo < s.nextTick
                  ∧ ∃ st ∈ claim, (st.mode = .pushPull ∧ c'.filtered ≠ st.level)
                      ∨ (st.mode = .openDrain ∧ st.level = false ∧ c'.filtered = true))
              ∧ (c'.parked, c'.presented, c'.blanking) =
                  (if has park l then (true, (s.profile.lines.get l).rest.pin, none)
                   else (c.parked, c.presented, c.blanking)))
        ∧ ∀ h, (t.boards.get h).notices = (s.boards.get h).notices ∧ (t.boards.get h).flags = (s.boards.get h).flags
            ∧ ∀ l, has (t.boards.get h).change l =
                  (has (s.boards.get h).change l || (has edge l && decide (∃ x ∈ (s.cells.get l).holder, x.owner = h)))
                ∧ has (t.boards.get h).overrun l =
                  (has (s.boards.get h).overrun l || (has (s.boards.get h).change l && has edge l
                    && decide (∃ x ∈ (s.cells.get l).holder, x.owner = h)))
                ∧ has (t.boards.get h).fault l =
                  (has (s.boards.get h).fault l || (has park l && decide (∃ x ∈ (s.cells.get l).holder, x.owner = h))))
    ∧ (
      s.resetn = true → (s.cells.get bl).blanking = some be →
      ∃ t, exec (.blankingEnd bl) s = .next t
        ∧ t = { s with now := max s.now be, cells := t.cells }
        ∧ t.cells.get bl = { s.cells.get bl with blanking := none, blankedTo := be }
        ∧ ∀ m, m ≠ bl → t.cells.get m = s.cells.get m)

/-! ## The notice boards -/

/-- FETCH_NOTICES (R115, R116, R117): the flags, the three sets and the notices of the lowest twelve tickets are returned, MORE
where others remain; what is returned leaves the board, and ATTN stays asserted only while notices remain. It is taken in ATTACHED
and in LAPSED under the request's epoch. Any payload is answered BAD_ARGUMENT. Nothing else changes. -/
def Obligations.FetchReturnsAndClears : Prop :=
  ∀ (s : State) (dt : Nat) (n : HostId) (q : Request),
    s.resetn = true → s.waits n q → q.kind = .fetchNotices → (s.sessions.get n).state ≠ .detached →
    q.epoch = (s.sessions.get n).epoch →
    ∃ t, exec (.fetchNotices dt n) s = .next t
      ∧ t = { s.elapse dt with ports := t.ports, boards := t.boards }
      ∧ (∀ h, h ≠ n → t.boards.get h = s.boards.get h)
      ∧ (if q.payload = [] then
          t.boards.get n =
              { notices := (s.boards.get n).notices.drop 12, change := 0#48, overrun := 0#48, fault := 0#48
                flags := SessionFlags.clear, attn := decide (12 < (s.boards.get n).notices.length) }
            ∧ posts s t n q .ok
              ([(if (s.boards.get n).flags.lapsedHeartbeat then 1#8 else 0#8)
                  ||| (if (s.boards.get n).flags.lapsedCleared then 2#8 else 0#8)
                  ||| (if (s.boards.get n).flags.voteOpen then 4#8 else 0#8)
                  ||| (if (s.boards.get n).flags.profileOpened then 8#8 else 0#8)
                  ||| (if (s.boards.get n).flags.voteFailed then 16#8 else 0#8)]
                ++ sentLines (s.boards.get n).change ++ sentLines (s.boards.get n).overrun
                ++ sentLines (s.boards.get n).fault
                ++ [BitVec.ofNat 8 (min 12 (s.boards.get n).notices.length)
                    ||| (if 12 < (s.boards.get n).notices.length then 0x80#8 else 0#8)]
                ++ ((s.boards.get n).notices.take 12).flatMap fun x =>
                    [x.1, match x.2 with
                      | .granted => 1#8 | .revokeNotice => 2#8 | .revokeWithdrawn => 3#8 | .revoked => 4#8
                      | .waitExpired => 5#8 | .denied => 6#8])
        else t.boards = s.boards ∧ posts s t n q .badArgument [])

/-! ## The profile -/

/-- READ_PROFILE (R131, R161): section 0 and section 1 give each line's mask and rest state in one byte, section 2 the state, the
vote and the other contents in 18 bytes; any other payload is answered BAD_ARGUMENT. It changes nothing. That the bonded groups
are one number, high byte first, is the model's reading (log 16). The time left is never more than the vote window less one
(R146): that it is so where no time has passed since the vote started is the model's choice (log 23). -/
def Obligations.ReadProfileReports : Prop :=
  ∀ (s : State) (dt : Nat) (n : HostId) (q : Request),
    s.takes .readProfile n q →
    ∃ t, exec (.readProfile dt) s = .next t
      ∧ (if q.payload = [0#8] ∨ q.payload = [1#8] then
          onlyAnswers s t dt .readProfile n q .ok
            ((List.range 24).map fun x =>
              let p := s.profile.lines.get (Fin.ofNat 48 (24 * (q.payload.getD 0 0#8).toNat + x))
              p.mask.setWidth 8 ||| ((match p.rest with
                | .float => 0x00#8 | .pullUp => 0x10#8 | .pullDown => 0x20#8 | .driveLow => 0x30#8 | .driveHigh => 0x40#8)))
        else if q.payload = [2#8] then
          onlyAnswers s t dt .readProfile n q .ok
            ([(if s.profile.state = .committed then 1#8 else 0#8) ||| (if s.vote.running then 2#8 else 0#8),
              s.vote.required.setWidth 8 ||| (s.vote.voted.setWidth 8 <<< 4),
              BitVec.ofNat 8 (match s.vote.deadline with | some d => min ((d - (s.now + dt)) / 100000) (s.profile.voteWindow - 1) | none => 0),
              s.profile.admin.setWidth 8]
              ++ twoBytes s.profile.bonded.toNat
              ++ ([0, 1, 2, 3].flatMap fun h : HostId =>
                  [BitVec.ofNat 8 (s.profile.hosts.get h).priority.val, BitVec.ofNat 8 (s.profile.hosts.get h).quota])
              ++ [BitVec.ofNat 8 s.profile.settle] ++ twoBytes s.profile.yieldWindow
              ++ [BitVec.ofNat 8 s.profile.voteWindow])
        else onlyAnswers s t dt .readProfile n q .badArgument [])

/-- SET_LINE_PROFILE (R72, R125, R126): the masks and rest states of its lines are replaced, a line that presents rest presents
the new one at once, every WAITING record excluded is freed with DENIED, and OK carries their number. Every board keeps its
session flags, the flags of lines no record denied named and the notices of tickets whose records stand, and the cells of lines
whose holder stands carry on, but for the rest state an edited line presents (R73, R107, R108). An edit that excludes none changes
no record (log 17). -/
def Obligations.SetLineProfileEditsAndDenies : Prop :=
  ∀ (s : State) (dt : Nat) (n : HostId) (q : Request),
    s.takes .setLineProfile n q → s.editPasses .setLineProfile n q.payload → s.capacityKept → s.presentsRight →
    ∃ t, exec (.setLineProfile dt) s = .next t
      ∧ t = { s.turn dt .setLineProfile n with
              ports := t.ports, slots := t.slots, eligible := t.eligible, cells := t.cells, boards := t.boards
              profile := { s.profile with lines := t.profile.lines } }
      ∧ (∀ l, (lineByte q.payload l = none → t.profile.lines.get l = s.profile.lines.get l)
          ∧ ∀ b ∈ lineByte q.payload l, (t.profile.lines.get l).mask = b.setWidth 4
              ∧ (match (t.profile.lines.get l).rest with
                  | .float => 0 | .pullUp => 1 | .pullDown => 2 | .driveLow => 3 | .driveHigh => 4) = b.toNat / 16 % 8)
      ∧ recordsRemain s t ∧ recordsLost s t (fun _ r => s.denies q.payload r)
      ∧ (∀ i, ∀ r ∈ s.slots.get i, s.denies q.payload r →
          t.noticeOf r.owner r.ticket = some .denied ∧ (t.boards.get r.owner).clearOf r)
      ∧ ((∀ i, ∀ r ∈ s.slots.get i, ¬ s.denies q.payload r) →
          t.slots = s.slots ∧ t.boards = s.boards ∧ t.eligible = s.eligible)
      ∧ (∀ l, (∀ i, ∀ r ∈ s.slots.get i, r.names l = false) → (s.cells.get l).holder = none →
          t.cells.get l = { s.cells.get l with presented := (t.profile.lines.get l).rest.pin })
      ∧ (∀ l, lineStands s t l → t.cells.get l =
          { s.cells.get l with
            presented := if lineByte q.payload l = none then (s.cells.get l).presented else (t.cells.get l).presented })
      ∧ samplesKept s t ∧ (∀ h, otherBoardsFollow s t h ∧ boardStands s t h)
      ∧ posts s t n q .ok [BitVec.ofNat 8 ((List.finRange 32).countP fun i =>
          match s.slots.get i with | some r => decide (s.denies q.payload r) | none => false)]

/-- SET_BOND (R128): a group that some record names is refused GROUP_BUSY when it would become bonded; otherwise the group is
bonded or not as the value says, and nothing else changes. -/
def Obligations.SetBondBindsTheGroup : Prop :=
  ∀ (s : State) (dt : Nat) (n : HostId) (q : Request) (g : GroupId),
    s.takes .setBond n q → s.editPasses .setBond n q.payload → (q.payload.getD 0 0#8).toNat = g.val →
    ∃ t, exec (.setBond dt) s = .next t
      ∧ (if q.payload.getD 1 0#8 = 1#8 ∧ has s.profile.bonded g = false
            ∧ ∃ i, ∃ r ∈ s.slots.get i, ∃ l : LineId, l.val / 4 = g.val ∧ r.names l = true then
          onlyAnswers s t dt .setBond n q .groupBusy []
        else
          t = { s.turn dt .setBond n with ports := t.ports, profile := { s.profile with bonded := t.profile.bonded } }
            ∧ (∀ x, has t.profile.bonded x = if x = g then decide (q.payload.getD 1 0#8 = 1#8) else has s.profile.bonded x)
            ∧ posts s t n q .ok [])

/-- SET_HOST_PROFILE (R129, R130): taking the only admin out is refused BAD_ARGUMENT, a quota below the host's records BELOW_USE
with their number; otherwise the host's three items are replaced, and nothing else changes: no record already in the table. -/
def Obligations.SetHostProfileReplacesThreeItems : Prop :=
  ∀ (s : State) (dt : Nat) (n : HostId) (q : Request) (h : HostId),
    s.takes .setHostProfile n q → s.editPasses .setHostProfile n q.payload → (q.payload.getD 0 0#8).toNat = h.val →
    ∃ t, exec (.setHostProfile dt) s = .next t
      ∧ (if q.payload.getD 3 0#8 = 0#8 ∧ (∀ x, has s.profile.admin x = decide (x = h)) then
          onlyAnswers s t dt .setHostProfile n q .badArgument []
        else if (q.payload.getD 2 0#8).toNat < s.countOf h then
          onlyAnswers s t dt .setHostProfile n q .belowUse [BitVec.ofNat 8 (s.countOf h)]
        else
          t = { s.turn dt .setHostProfile n with
                ports := t.ports, profile := { s.profile with hosts := t.profile.hosts, admin := t.profile.admin } }
            ∧ (t.profile.hosts.get h).priority.val = (q.payload.getD 1 0#8).toNat
            ∧ (t.profile.hosts.get h).quota = (q.payload.getD 2 0#8).toNat
            ∧ (∀ x, x ≠ h → t.profile.hosts.get x = s.profile.hosts.get x)
            ∧ (∀ x, has t.profile.admin x = if x = h then decide (q.payload.getD 3 0#8 = 1#8) else has s.profile.admin x)
            ∧ posts s t n q .ok [])

/-- SET_TIMING (R147, R148) replaces the three timing values, answers OK with them, and moves no running deadline; COMMIT_PROFILE
(R132) sets the profile COMMITTED and answers OK. Neither changes anything else. -/
def Obligations.SetTimingAndCommitChangeTheProfileAlone : Prop :=
  ∀ (s : State) (dt : Nat) (n : HostId) (q : Request),
    (s.takes .setTiming n q → s.editPasses .setTiming n q.payload →
      ∃ t, exec (.setTiming dt) s = .next t
        ∧ t = { s.turn dt .setTiming n with
                ports := t.ports
                profile := { s.profile with
                  settle := (q.payload.getD 0 0#8).toNat
                  yieldWindow := 256 * (q.payload.getD 1 0#8).toNat + (q.payload.getD 2 0#8).toNat
                  voteWindow := (q.payload.getD 3 0#8).toNat } }
        ∧ posts s t n q .ok q.payload)
    ∧ (s.takes .commitProfile n q → s.editPasses .commitProfile n q.payload →
      ∃ t, exec (.commitProfile dt) s = .next t
        ∧ t = { s.turn dt .commitProfile n with
                ports := t.ports, profile := { s.profile with state := .committed } }
        ∧ posts s t n q .ok [])

/-- The administrative requests, refused (R124, R137): NOT_ADMIN, then PROFILE_LOCKED, then BAD_ARGUMENT for the five kinds of
R124; and for CLEAR ALL with no payload NOT_ADMIN, for an admin's with a payload BAD_ARGUMENT, and for one that earns both, either
(a free value, log 11). Nothing changes but the port and the turn. -/
def Obligations.AdministrationRefused : Prop :=
  ∀ (s : State) (dt : Nat) (n : HostId) (q : Request) (k : Kind) (c : Instr) (st : Status),
    (k, c) ∈ [(Kind.setLineProfile, Instr.setLineProfile dt), (.setBond, .setBond dt), (.setHostProfile, .setHostProfile dt),
      (.setTiming, .setTiming dt), (.commitProfile, .commitProfile dt), (.clearAll, .clearAll dt)] →
    s.takes k n q →
    (if k = .clearAll then
        (has s.profile.admin n = false ∧ q.payload = [] ∧ st = .notAdmin)
          ∨ (has s.profile.admin n = true ∧ q.payload ≠ [] ∧ st = .badArgument)
          ∨ (has s.profile.admin n = false ∧ q.payload ≠ []
            ∧ st = if Config.clearAllArgumentFirst then .badArgument else .notAdmin)
      else s.editRefused k n q.payload st) →
    ∃ t, exec c s = .next t ∧ onlyAnswers s t dt k n q st []

/-- While the profile is COMMITTED its contents do not change, whatever comes but a hardware reset (R132). -/
def Obligations.CommittedContentsStand : Prop :=
  ∀ (c : Instr) (s t : State),
    exec c s = .next t → s.profile.state = .committed → (∀ dt, c ≠ .hardwareReset dt) →
    t.profile = { s.profile with state := t.profile.state }

/-- REOPEN_VOTE (R133, R134, R135): in OPEN it is answered WRONG_STATE; in COMMITTED it starts a vote with the attached hosts
required, its deadline one window ahead and VOTE_OPEN posted to the others, or adds the issuer's vote to the one that runs. A
required set that has voted whole completes the vote: the profile is OPEN, the vote over, and PROFILE_OPENED on every attached
host's board. A payload is answered BAD_ARGUMENT; that it is so in OPEN too, before the profile state is looked at, is the model's
reading (log 12). -/
def Obligations.ReopenVoteCounts : Prop :=
  ∀ (s : State) (dt : Nat) (n : HostId) (q : Request),
    s.takes .reopenVote n q → s.voteRight → s.voteUndecided →
    ∃ t, ∃ req vot : HostSet, exec (.reopenVote dt) s = .next t
      ∧ (∀ h, has req h = decide ((s.sessions.get h).state = .attached)
          ∧ has vot h = (decide (h = n) || has s.vote.voted h))
      ∧ (if q.payload ≠ [] then onlyAnswers s t dt .reopenVote n q .badArgument []
        else if s.profile.state = .opened then onlyAnswers s t dt .reopenVote n q .wrongState []
        else
          t = { s.turn dt .reopenVote n with
                ports := t.ports, sessions := t.sessions, boards := t.boards, vote := t.vote
                profile := { s.profile with state := t.profile.state } }
            ∧ (∀ h, t.sessions.get h = { s.sessions.get h with voted := (t.sessions.get h).voted })
            ∧ (if vot = req then
                t.profile.state = .opened ∧ t.vote = { running := false, deadline := none, required := 0#4, voted := 0#4 }
                  ∧ (∀ h, (t.sessions.get h).voted = false
                      ∧ ((s.sessions.get h).state = .attached → (t.boards.get h).flags.profileOpened = true)
                      ∧ ((s.sessions.get h).state ≠ .attached → t.boards.get h = s.boards.get h))
                  ∧ posts s t n q .ok [0#8, 0#8]
              else
                t.profile.state = .committed
                  ∧ t.vote = { running := true, required := req, voted := vot
                               deadline := if s.vote.running then s.vote.deadline
                                 else some (s.now + dt + s.profile.voteWindow * 100000) }
                  ∧ (∀ h, (t.sessions.get h).voted = has vot h
                      ∧ if s.vote.running = false ∧ h ≠ n ∧ (s.sessions.get h).state = .attached then
                          t.boards.get h =
                            { s.boards.get h with
                              flags := { (s.boards.get h).flags with voteOpen := true }, attn := true }
                        else t.boards.get h = s.boards.get h)
                  ∧ posts s t n q .ok [3#8, req.setWidth 8 ||| (vot.setWidth 8 <<< 4)]))

/-- VOTE_DEADLINE (R133, R136): the vote ends without completing, VOTE_FAILED is posted to every host in the voted set, the
profile stays as it is, and every vote flag is cleared. That the time becomes the deadline, or stays where it is past it, is the
model's choice (log 2). -/
def Obligations.VoteDeadlineFailsTheVote : Prop :=
  ∀ (s : State) (d : Nat),
    s.resetn = true → s.vote.running = true → s.vote.deadline = some d →
    ∃ t, exec .voteDeadline s = .next t
      ∧ t = { s with
              now := max s.now d, sessions := t.sessions, boards := t.boards
              vote := { running := false, deadline := none, required := 0#4, voted := 0#4 } }
      ∧ ∀ h, t.sessions.get h = { s.sessions.get h with voted := false }
          ∧ t.boards.get h =
            if has s.vote.voted h then
              { s.boards.get h with flags := { (s.boards.get h).flags with voteFailed := true }, attn := true }
            else s.boards.get h

/-- CLEAR_ALL (R8, R101, R137): a running vote ends, every other ATTACHED session lapses, every record is freed and its lines go
to rest, the boards of the hosts lapsed hold LAPSED_CLEARED alone, the issuer's notices and session flags stay with the flags of
lines no record of its own named, and OK carries the number of records and the hosts lapsed. The profile and the ports of others
stay. -/
def Obligations.ClearAllEmptiesTheTable : Prop :=
  ∀ (s : State) (dt : Nat) (n : HostId) (q : Request),
    s.takes .clearAll n q → has s.profile.admin n = true → q.payload = [] →
    ∃ t, ∃ lapsed : HostSet, exec (.clearAll dt) s = .next t
      ∧ (∀ h, has lapsed h = (decide (h ≠ n) && decide ((s.sessions.get h).state = .attached)))
      ∧ t = { s.turn dt .clearAll n with
              ports := t.ports, sessions := t.sessions, slots := t.slots, eligible := [], cells := t.cells
              boards := t.boards, vote := { running := false, deadline := none, required := 0#4, voted := 0#4 } }
      ∧ (∀ i, t.slots.get i = none)
      ∧ (∀ h, t.sessions.get h =
          if has lapsed h then { s.sessions.get h with state := .lapsed, deadline := none, voted := false }
          else { s.sessions.get h with voted := false })
      ∧ (∀ l, if s.lineHeld l then t.atRest l else t.cells.get l = s.cells.get l)
      ∧ samplesKept s t
      ∧ (∀ h, has lapsed h = true → t.boards.get h =
          { notices := [], change := 0#48, overrun := 0#48, fault := 0#48, attn := true
            flags := { SessionFlags.clear with lapsedCleared := true } })
      ∧ (∀ h, has lapsed h = false → (t.boards.get h).notices = (s.boards.get h).notices
          ∧ boardStands s t h
          ∧ ∀ i, ∀ r ∈ s.slots.get i, r.owner = h → (t.boards.get h).clearOf r)
      ∧ posts s t n q .ok
          [BitVec.ofNat 8 ((List.finRange 32).countP fun i => (s.slots.get i).isSome), lapsed.setWidth 8]

/-! ## What every step keeps -/

/-- Every step keeps what R70 says each pin does: the claim's setting for a HELD or YIELDING holder that is not parked, by the
table of R71 for each mode and level; the rest state otherwise, by the table of R72; and FLOAT while RESETn is low. -/
def Obligations.EveryStepPresentsRight : Prop :=
  ∀ (s t : State),
    s.presentsRight → step s = .next t → t.presentsRight

/-- Every step keeps ATTN asserted exactly while its board is not empty (R114), and boards empty while RESETn is low (R120); and the
link status byte carries a mirror of the same condition. -/
def Obligations.EveryStepKeepsAttn : Prop :=
  ∀ (s t : State),
    s.attnRight → step s = .next t →
    t.attnRight ∧ ∀ n, (statusByte (t.ports.get n) (t.boards.get n)).getLsbD 4 = (t.boards.get n).attn

/-- Every step keeps the capacity law of R11 and the form of the boards of R106 and R110. -/
def Obligations.EveryStepKeepsCapacity : Prop :=
  ∀ (s t : State),
    s.boardsInForm → s.capacityKept → step s = .next t → t.boardsInForm ∧ t.capacityKept

/-- Every step keeps table and cells in agreement: one holder to a line (R30), each cell's holder and applied setting those of the
record that holds the line (R69), and line flags only for lines held in HELD or YIELDING (R111). -/
def Obligations.EveryStepKeepsCellsAndTableAgreed : Prop :=
  ∀ (s t : State),
    s.cellsFollow → s.flagsForHeldLines → step s = .next t → t.cellsFollow ∧ t.flagsForHeldLines ∧ t.oneHolder

/-- When a grant evaluation has run, no WAITING record is grantable (R36): one walk reaches that point from every table with
distinct entry numbers. Every step therefore leaves none grantable, and entry numbers distinct (R14). -/
def Obligations.EveryStepLeavesNoneGrantable : Prop :=
  ∀ (s t : State),
    s.entriesDistinct →
    s.grantWalk.noneGrantable ∧ (s.noneGrantable → step s = .next t → t.entriesDistinct ∧ t.noneGrantable)

/-- Every step leaves the set kept equal to the eligible preemptors (R50), and a live record YIELDING while one stands against it
and HELD while none does (R51, R52). A record that passes from HELD to YIELDING has its yield end one yield window after the event
and REVOKE_NOTICE on its owner's board (R53); one that passes back has no deadline and REVOKE_WITHDRAWN (R56); either way its
lines carry on: setting, parked flag, blanking, samples (R73). A record that stays YIELDING keeps its yield end (R55). The
interval kept beside a deadline is the model's own (log 23). -/
def Obligations.EveryStepYieldsToPreemptors : Prop :=
  ∀ (s t : State),
    s.entriesDistinct → s.yieldsRight → step s = .next t →
    t.yieldsRight
      ∧ ∀ i, ∀ r ∈ s.slots.get i, ∀ r' ∈ t.slots.get i,
          (r.state = .yielding → r'.state = .yielding → r'.deadline = r.deadline ∧ r'.span = r.span)
            ∧ ((r.state = .held ∧ r'.state = .yielding) ∨ (r.state = .yielding ∧ r'.state = .held) →
              r' = (if r'.state = .yielding then r.inYielding t.now t.profile.yieldWindow else r.inHeld)
                ∧ (s.owns r.owner r.ticket i r →
                    t.noticeOf r.owner r.ticket = some (if r'.state = .yielding then .revokeNotice else .revokeWithdrawn))
                ∧ (s.cellsMatch i r →
                    (∀ j, ∀ w ∈ s.slots.get j, j ≠ i → w.state ≠ .waiting → ∀ l, r.names l = true → w.names l = false) →
                    ∀ e ∈ r.lines, t.cells.get e.line =
                      { s.cells.get e.line with
                        holder := some { slot := i, owner := r.owner, ticket := r.ticket, state := r'.state }
                        presented := (t.cells.get e.line).presented }))

/-- Every step keeps deadlines where their states call for them, of records (R4) and of sessions (R90), and every record with a host
whose session is ATTACHED (R9, R105). It keeps every interval in its range, those a report of a time left is counted from among them
(R143, R146, R147; the interval kept beside a record's deadline is the model's own, log 23). -/
def Obligations.EveryStepKeepsDeadlinesAndSessions : Prop :=
  ∀ (s t : State),
    s.deadlinesRight → s.heartbeatsRight → s.recordsAttached → step s = .next t →
    t.deadlinesRight ∧ t.heartbeatsRight ∧ t.recordsAttached ∧ (s.intervalsRight → t.intervalsRight)

/-- Every step keeps each host within its quota (R10) and the admin mask not empty (R129). -/
def Obligations.EveryStepKeepsQuotasAndAnAdmin : Prop :=
  ∀ (s t : State),
    s.withinQuota → s.hasAdmin → step s = .next t → t.withinQuota ∧ t.hasAdmin

/-- Every step keeps the vote as R133 holds it: it runs only while the profile is COMMITTED, its required set is the ATTACHED
hosts, its voted set a part of it, and the sessions' vote flags show it; and a vote whose required set has voted whole runs no
longer (R135). -/
def Obligations.EveryStepKeepsTheVote : Prop :=
  ∀ (s t : State),
    s.voteRight → step s = .next t → t.voteRight ∧ (s.voteUndecided → t.voteUndecided)
end

