-- ==== Sys2Proof/Laws/Table.lean ====
section
/-! SUPPORT. The laws of tables (read after write) and of sets held in words. -/

namespace Sys2Proof

/-- Reading a table built entry by entry. -/
@[simp] theorem Table.get_ofFn {n : Nat} {α : Type} (f : Fin n → α) (i : Fin n) : (Table.ofFn f).get i = f i := by
  simp [Table.get, Table.ofFn]

/-- Reading a table of equal entries. -/
@[simp] theorem Table.get_fill {α : Type} (n : Nat) (a : α) (i : Fin n) : (Table.fill n a).get i = a := by
  simp [Table.get, Table.fill]

/-- A read after a write to the same place gives the value written. -/
@[simp] theorem Table.get_set_self {n : Nat} {α : Type} (t : Table n α) (i : Fin n) (a : α) : (t.set i a).get i = a := by
  simp [Table.get, Table.set]

/-- A write leaves every other place alone. -/
theorem Table.get_set_ne {n : Nat} {α : Type} (t : Table n α) {i j : Fin n} (a : α) (h : j ≠ i) :
    (t.set i a).get j = t.get j := by
  simp [Table.get, Table.set, Fin.val_ne_of_ne (Ne.symm h)]

/-- A read after a write, whichever place is read. -/
theorem Table.get_set {n : Nat} {α : Type} (t : Table n α) (i j : Fin n) (a : α) :
    (t.set i a).get j = if j = i then a else t.get j := by
  by_cases h : j = i
  · subst h; simp
  · simp [h, Table.get_set_ne]

/-- Two tables with the same entries are equal. -/
theorem Table.ext_get {n : Nat} {α : Type} {t u : Table n α} (h : ∀ i, t.get i = u.get i) : t = u := by
  rcases t with ⟨l, hl⟩
  rcases u with ⟨m, hm⟩
  have : l = m := List.ext_getElem (by omega) fun k h1 h2 => h ⟨k, by omega⟩
  subst this; rfl

/-- A second write to one place replaces the first. -/
@[simp] theorem Table.set_set {n : Nat} {α : Type} (t : Table n α) (i : Fin n) (a b : α) :
    (t.set i a).set i b = t.set i b :=
  Table.ext_get fun j => by simp only [Table.get_set]; split <;> rfl

/-- Writing back what was read changes nothing. -/
@[simp] theorem Table.set_get {n : Nat} {α : Type} (t : Table n α) (i : Fin n) : t.set i (t.get i) = t :=
  Table.ext_get fun j => by rw [Table.get_set]; split <;> simp_all

/-- A member of the set of those that satisfy `p` satisfies `p`. -/
@[simp] theorem has_bitsWhere {n : Nat} (p : Fin n → Bool) (i : Fin n) : has (bitsWhere p) i = p i := by
  simp [has, bitsWhere]

/-- The only member of a singleton. -/
@[simp] theorem has_bitOf {n : Nat} (i j : Fin n) : has (bitOf i) j = decide (j = i) := by
  simp [bitOf]

/-- Membership of a union. -/
@[simp] theorem has_or {n : Nat} (v w : BitVec n) (i : Fin n) : has (v ||| w) i = (has v i || has w i) := by
  simp [has]

/-- Membership of an intersection. -/
@[simp] theorem has_and {n : Nat} (v w : BitVec n) (i : Fin n) : has (v &&& w) i = (has v i && has w i) := by
  simp [has]

/-- Membership of a complement. -/
@[simp] theorem has_not {n : Nat} (v : BitVec n) (i : Fin n) : has (~~~ v) i = !has v i := by
  simp [has]

/-- The empty set has no member. -/
@[simp] theorem has_zero {n : Nat} (i : Fin n) : has (0 : BitVec n) i = false := by
  simp [has]

/-- The empty set, as a numeral of its width, has no member. -/
@[simp] theorem has_zero' {n : Nat} (i : Fin n) : has (0#n) i = false := by
  simp [has]

/-- Two sets with the same members are equal. -/
theorem ext_has {n : Nat} {v w : BitVec n} (h : ∀ i : Fin n, has v i = has w i) : v = w :=
  BitVec.eq_of_getLsbD_eq fun k hk => h ⟨k, hk⟩

/-- A set is empty exactly when it has no member. -/
theorem eq_zero_iff_has {n : Nat} (v : BitVec n) : v = 0 ↔ ∀ i : Fin n, has v i = false :=
  ⟨fun h i => by subst h; exact has_zero i, fun h => ext_has fun i => by rw [h i]; exact (has_zero i).symm⟩

end Sys2Proof
end

