-- ==== Sys2Proof/Laws/State.lean ====
section
/-! SUPPORT. One lemma per field per update: what each update of State writes, and that it leaves the other fields. -/

namespace Sys2Proof.Machine

/-! Time passing changes the time alone. -/

@[simp] theorem State.elapse_pending (s : State) (dt : Nat) : (s.elapse dt).pending = s.pending := rfl
@[simp] theorem State.elapse_now (s : State) (dt : Nat) : (s.elapse dt).now = s.now + dt := rfl
@[simp] theorem State.elapse_nextTick (s : State) (dt : Nat) : (s.elapse dt).nextTick = s.nextTick := rfl
@[simp] theorem State.elapse_resetn (s : State) (dt : Nat) : (s.elapse dt).resetn = s.resetn := rfl
@[simp] theorem State.elapse_ports (s : State) (dt : Nat) : (s.elapse dt).ports = s.ports := rfl
@[simp] theorem State.elapse_sessions (s : State) (dt : Nat) : (s.elapse dt).sessions = s.sessions := rfl
@[simp] theorem State.elapse_slots (s : State) (dt : Nat) : (s.elapse dt).slots = s.slots := rfl
@[simp] theorem State.elapse_eligible (s : State) (dt : Nat) : (s.elapse dt).eligible = s.eligible := rfl
@[simp] theorem State.elapse_ctcLast (s : State) (dt : Nat) : (s.elapse dt).ctcLast = s.ctcLast := rfl
@[simp] theorem State.elapse_cells (s : State) (dt : Nat) : (s.elapse dt).cells = s.cells := rfl
@[simp] theorem State.elapse_lcaLast (s : State) (dt : Nat) : (s.elapse dt).lcaLast = s.lcaLast := rfl
@[simp] theorem State.elapse_boards (s : State) (dt : Nat) : (s.elapse dt).boards = s.boards := rfl
@[simp] theorem State.elapse_profile (s : State) (dt : Nat) : (s.elapse dt).profile = s.profile := rfl
@[simp] theorem State.elapse_vote (s : State) (dt : Nat) : (s.elapse dt).vote = s.vote := rfl
@[simp] theorem State.elapse_puLast (s : State) (dt : Nat) : (s.elapse dt).puLast = s.puLast := rfl

/-! An arriving moment changes the time alone. -/

@[simp] theorem State.reach_pending (s : State) (d : Nat) : (s.reach d).pending = s.pending := rfl
@[simp] theorem State.reach_now (s : State) (d : Nat) : (s.reach d).now = max s.now d := rfl
@[simp] theorem State.reach_nextTick (s : State) (d : Nat) : (s.reach d).nextTick = s.nextTick := rfl
@[simp] theorem State.reach_resetn (s : State) (d : Nat) : (s.reach d).resetn = s.resetn := rfl
@[simp] theorem State.reach_ports (s : State) (d : Nat) : (s.reach d).ports = s.ports := rfl
@[simp] theorem State.reach_sessions (s : State) (d : Nat) : (s.reach d).sessions = s.sessions := rfl
@[simp] theorem State.reach_slots (s : State) (d : Nat) : (s.reach d).slots = s.slots := rfl
@[simp] theorem State.reach_eligible (s : State) (d : Nat) : (s.reach d).eligible = s.eligible := rfl
@[simp] theorem State.reach_ctcLast (s : State) (d : Nat) : (s.reach d).ctcLast = s.ctcLast := rfl
@[simp] theorem State.reach_cells (s : State) (d : Nat) : (s.reach d).cells = s.cells := rfl
@[simp] theorem State.reach_lcaLast (s : State) (d : Nat) : (s.reach d).lcaLast = s.lcaLast := rfl
@[simp] theorem State.reach_boards (s : State) (d : Nat) : (s.reach d).boards = s.boards := rfl
@[simp] theorem State.reach_profile (s : State) (d : Nat) : (s.reach d).profile = s.profile := rfl
@[simp] theorem State.reach_vote (s : State) (d : Nat) : (s.reach d).vote = s.vote := rfl
@[simp] theorem State.reach_puLast (s : State) (d : Nat) : (s.reach d).puLast = s.puLast := rfl

/-! A port put in place changes the ports alone. -/

@[simp] theorem State.putPort_pending (s : State) (n : HostId) (p : Port) : (s.putPort n p).pending = s.pending := rfl
@[simp] theorem State.putPort_now (s : State) (n : HostId) (p : Port) : (s.putPort n p).now = s.now := rfl
@[simp] theorem State.putPort_nextTick (s : State) (n : HostId) (p : Port) : (s.putPort n p).nextTick = s.nextTick := rfl
@[simp] theorem State.putPort_resetn (s : State) (n : HostId) (p : Port) : (s.putPort n p).resetn = s.resetn := rfl
@[simp] theorem State.putPort_ports (s : State) (n : HostId) (p : Port) : (s.putPort n p).ports = s.ports.set n p := rfl
@[simp] theorem State.putPort_sessions (s : State) (n : HostId) (p : Port) : (s.putPort n p).sessions = s.sessions := rfl
@[simp] theorem State.putPort_slots (s : State) (n : HostId) (p : Port) : (s.putPort n p).slots = s.slots := rfl
@[simp] theorem State.putPort_eligible (s : State) (n : HostId) (p : Port) : (s.putPort n p).eligible = s.eligible := rfl
@[simp] theorem State.putPort_ctcLast (s : State) (n : HostId) (p : Port) : (s.putPort n p).ctcLast = s.ctcLast := rfl
@[simp] theorem State.putPort_cells (s : State) (n : HostId) (p : Port) : (s.putPort n p).cells = s.cells := rfl
@[simp] theorem State.putPort_lcaLast (s : State) (n : HostId) (p : Port) : (s.putPort n p).lcaLast = s.lcaLast := rfl
@[simp] theorem State.putPort_boards (s : State) (n : HostId) (p : Port) : (s.putPort n p).boards = s.boards := rfl
@[simp] theorem State.putPort_profile (s : State) (n : HostId) (p : Port) : (s.putPort n p).profile = s.profile := rfl
@[simp] theorem State.putPort_vote (s : State) (n : HostId) (p : Port) : (s.putPort n p).vote = s.vote := rfl
@[simp] theorem State.putPort_puLast (s : State) (n : HostId) (p : Port) : (s.putPort n p).puLast = s.puLast := rfl

/-! A reply changes the ports alone. -/

@[simp] theorem State.reply_pending (s : State) (n : HostId) (q : Request) (a : Answer) : (s.reply n q a).pending = s.pending := rfl
@[simp] theorem State.reply_now (s : State) (n : HostId) (q : Request) (a : Answer) : (s.reply n q a).now = s.now := rfl
@[simp] theorem State.reply_nextTick (s : State) (n : HostId) (q : Request) (a : Answer) : (s.reply n q a).nextTick = s.nextTick := rfl
@[simp] theorem State.reply_resetn (s : State) (n : HostId) (q : Request) (a : Answer) : (s.reply n q a).resetn = s.resetn := rfl
@[simp] theorem State.reply_ports (s : State) (n : HostId) (q : Request) (a : Answer) : (s.reply n q a).ports = s.ports.set n ((s.ports.get n).answer q.seq (some q.signature) a) := rfl
@[simp] theorem State.reply_sessions (s : State) (n : HostId) (q : Request) (a : Answer) : (s.reply n q a).sessions = s.sessions := rfl
@[simp] theorem State.reply_slots (s : State) (n : HostId) (q : Request) (a : Answer) : (s.reply n q a).slots = s.slots := rfl
@[simp] theorem State.reply_eligible (s : State) (n : HostId) (q : Request) (a : Answer) : (s.reply n q a).eligible = s.eligible := rfl
@[simp] theorem State.reply_ctcLast (s : State) (n : HostId) (q : Request) (a : Answer) : (s.reply n q a).ctcLast = s.ctcLast := rfl
@[simp] theorem State.reply_cells (s : State) (n : HostId) (q : Request) (a : Answer) : (s.reply n q a).cells = s.cells := rfl
@[simp] theorem State.reply_lcaLast (s : State) (n : HostId) (q : Request) (a : Answer) : (s.reply n q a).lcaLast = s.lcaLast := rfl
@[simp] theorem State.reply_boards (s : State) (n : HostId) (q : Request) (a : Answer) : (s.reply n q a).boards = s.boards := rfl
@[simp] theorem State.reply_profile (s : State) (n : HostId) (q : Request) (a : Answer) : (s.reply n q a).profile = s.profile := rfl
@[simp] theorem State.reply_vote (s : State) (n : HostId) (q : Request) (a : Answer) : (s.reply n q a).vote = s.vote := rfl
@[simp] theorem State.reply_puLast (s : State) (n : HostId) (q : Request) (a : Answer) : (s.reply n q a).puLast = s.puLast := rfl

/-! A session context put in place changes the sessions alone. -/

@[simp] theorem State.putSession_pending (s : State) (h : HostId) (c : Session) : (s.putSession h c).pending = s.pending := rfl
@[simp] theorem State.putSession_now (s : State) (h : HostId) (c : Session) : (s.putSession h c).now = s.now := rfl
@[simp] theorem State.putSession_nextTick (s : State) (h : HostId) (c : Session) : (s.putSession h c).nextTick = s.nextTick := rfl
@[simp] theorem State.putSession_resetn (s : State) (h : HostId) (c : Session) : (s.putSession h c).resetn = s.resetn := rfl
@[simp] theorem State.putSession_ports (s : State) (h : HostId) (c : Session) : (s.putSession h c).ports = s.ports := rfl
@[simp] theorem State.putSession_sessions (s : State) (h : HostId) (c : Session) : (s.putSession h c).sessions = s.sessions.set h c := rfl
@[simp] theorem State.putSession_slots (s : State) (h : HostId) (c : Session) : (s.putSession h c).slots = s.slots := rfl
@[simp] theorem State.putSession_eligible (s : State) (h : HostId) (c : Session) : (s.putSession h c).eligible = s.eligible := rfl
@[simp] theorem State.putSession_ctcLast (s : State) (h : HostId) (c : Session) : (s.putSession h c).ctcLast = s.ctcLast := rfl
@[simp] theorem State.putSession_cells (s : State) (h : HostId) (c : Session) : (s.putSession h c).cells = s.cells := rfl
@[simp] theorem State.putSession_lcaLast (s : State) (h : HostId) (c : Session) : (s.putSession h c).lcaLast = s.lcaLast := rfl
@[simp] theorem State.putSession_boards (s : State) (h : HostId) (c : Session) : (s.putSession h c).boards = s.boards := rfl
@[simp] theorem State.putSession_profile (s : State) (h : HostId) (c : Session) : (s.putSession h c).profile = s.profile := rfl
@[simp] theorem State.putSession_vote (s : State) (h : HostId) (c : Session) : (s.putSession h c).vote = s.vote := rfl
@[simp] theorem State.putSession_puLast (s : State) (h : HostId) (c : Session) : (s.putSession h c).puLast = s.puLast := rfl

/-! A vote flag set or cleared changes the sessions alone. -/

@[simp] theorem State.setVoted_pending (s : State) (h : HostId) (v : Bool) : (s.setVoted h v).pending = s.pending := rfl
@[simp] theorem State.setVoted_now (s : State) (h : HostId) (v : Bool) : (s.setVoted h v).now = s.now := rfl
@[simp] theorem State.setVoted_nextTick (s : State) (h : HostId) (v : Bool) : (s.setVoted h v).nextTick = s.nextTick := rfl
@[simp] theorem State.setVoted_resetn (s : State) (h : HostId) (v : Bool) : (s.setVoted h v).resetn = s.resetn := rfl
@[simp] theorem State.setVoted_ports (s : State) (h : HostId) (v : Bool) : (s.setVoted h v).ports = s.ports := rfl
@[simp] theorem State.setVoted_sessions (s : State) (h : HostId) (v : Bool) : (s.setVoted h v).sessions = s.sessions.set h { s.sessions.get h with voted := v } := rfl
@[simp] theorem State.setVoted_slots (s : State) (h : HostId) (v : Bool) : (s.setVoted h v).slots = s.slots := rfl
@[simp] theorem State.setVoted_eligible (s : State) (h : HostId) (v : Bool) : (s.setVoted h v).eligible = s.eligible := rfl
@[simp] theorem State.setVoted_ctcLast (s : State) (h : HostId) (v : Bool) : (s.setVoted h v).ctcLast = s.ctcLast := rfl
@[simp] theorem State.setVoted_cells (s : State) (h : HostId) (v : Bool) : (s.setVoted h v).cells = s.cells := rfl
@[simp] theorem State.setVoted_lcaLast (s : State) (h : HostId) (v : Bool) : (s.setVoted h v).lcaLast = s.lcaLast := rfl
@[simp] theorem State.setVoted_boards (s : State) (h : HostId) (v : Bool) : (s.setVoted h v).boards = s.boards := rfl
@[simp] theorem State.setVoted_profile (s : State) (h : HostId) (v : Bool) : (s.setVoted h v).profile = s.profile := rfl
@[simp] theorem State.setVoted_vote (s : State) (h : HostId) (v : Bool) : (s.setVoted h v).vote = s.vote := rfl
@[simp] theorem State.setVoted_puLast (s : State) (h : HostId) (v : Bool) : (s.setVoted h v).puLast = s.puLast := rfl

/-! A board put in place changes the boards alone. -/

@[simp] theorem State.putBoard_pending (s : State) (h : HostId) (b : Board) : (s.putBoard h b).pending = s.pending := rfl
@[simp] theorem State.putBoard_now (s : State) (h : HostId) (b : Board) : (s.putBoard h b).now = s.now := rfl
@[simp] theorem State.putBoard_nextTick (s : State) (h : HostId) (b : Board) : (s.putBoard h b).nextTick = s.nextTick := rfl
@[simp] theorem State.putBoard_resetn (s : State) (h : HostId) (b : Board) : (s.putBoard h b).resetn = s.resetn := rfl
@[simp] theorem State.putBoard_ports (s : State) (h : HostId) (b : Board) : (s.putBoard h b).ports = s.ports := rfl
@[simp] theorem State.putBoard_sessions (s : State) (h : HostId) (b : Board) : (s.putBoard h b).sessions = s.sessions := rfl
@[simp] theorem State.putBoard_slots (s : State) (h : HostId) (b : Board) : (s.putBoard h b).slots = s.slots := rfl
@[simp] theorem State.putBoard_eligible (s : State) (h : HostId) (b : Board) : (s.putBoard h b).eligible = s.eligible := rfl
@[simp] theorem State.putBoard_ctcLast (s : State) (h : HostId) (b : Board) : (s.putBoard h b).ctcLast = s.ctcLast := rfl
@[simp] theorem State.putBoard_cells (s : State) (h : HostId) (b : Board) : (s.putBoard h b).cells = s.cells := rfl
@[simp] theorem State.putBoard_lcaLast (s : State) (h : HostId) (b : Board) : (s.putBoard h b).lcaLast = s.lcaLast := rfl
@[simp] theorem State.putBoard_boards (s : State) (h : HostId) (b : Board) : (s.putBoard h b).boards = s.boards.set h { b with attn := !b.isEmpty } := rfl
@[simp] theorem State.putBoard_profile (s : State) (h : HostId) (b : Board) : (s.putBoard h b).profile = s.profile := rfl
@[simp] theorem State.putBoard_vote (s : State) (h : HostId) (b : Board) : (s.putBoard h b).vote = s.vote := rfl
@[simp] theorem State.putBoard_puLast (s : State) (h : HostId) (b : Board) : (s.putBoard h b).puLast = s.puLast := rfl

/-! An edit of a board changes the boards alone. -/

@[simp] theorem State.editBoard_pending (s : State) (h : HostId) (f : Board → Board) : (s.editBoard h f).pending = s.pending := rfl
@[simp] theorem State.editBoard_now (s : State) (h : HostId) (f : Board → Board) : (s.editBoard h f).now = s.now := rfl
@[simp] theorem State.editBoard_nextTick (s : State) (h : HostId) (f : Board → Board) : (s.editBoard h f).nextTick = s.nextTick := rfl
@[simp] theorem State.editBoard_resetn (s : State) (h : HostId) (f : Board → Board) : (s.editBoard h f).resetn = s.resetn := rfl
@[simp] theorem State.editBoard_ports (s : State) (h : HostId) (f : Board → Board) : (s.editBoard h f).ports = s.ports := rfl
@[simp] theorem State.editBoard_sessions (s : State) (h : HostId) (f : Board → Board) : (s.editBoard h f).sessions = s.sessions := rfl
@[simp] theorem State.editBoard_slots (s : State) (h : HostId) (f : Board → Board) : (s.editBoard h f).slots = s.slots := rfl
@[simp] theorem State.editBoard_eligible (s : State) (h : HostId) (f : Board → Board) : (s.editBoard h f).eligible = s.eligible := rfl
@[simp] theorem State.editBoard_ctcLast (s : State) (h : HostId) (f : Board → Board) : (s.editBoard h f).ctcLast = s.ctcLast := rfl
@[simp] theorem State.editBoard_cells (s : State) (h : HostId) (f : Board → Board) : (s.editBoard h f).cells = s.cells := rfl
@[simp] theorem State.editBoard_lcaLast (s : State) (h : HostId) (f : Board → Board) : (s.editBoard h f).lcaLast = s.lcaLast := rfl
@[simp] theorem State.editBoard_boards (s : State) (h : HostId) (f : Board → Board) : (s.editBoard h f).boards = s.boards.set h { f (s.boards.get h) with attn := !(f (s.boards.get h)).isEmpty } := rfl
@[simp] theorem State.editBoard_profile (s : State) (h : HostId) (f : Board → Board) : (s.editBoard h f).profile = s.profile := rfl
@[simp] theorem State.editBoard_vote (s : State) (h : HostId) (f : Board → Board) : (s.editBoard h f).vote = s.vote := rfl
@[simp] theorem State.editBoard_puLast (s : State) (h : HostId) (f : Board → Board) : (s.editBoard h f).puLast = s.puLast := rfl

/-! A ticket notice posted changes the boards alone. -/

@[simp] theorem State.post_pending (s : State) (h : HostId) (t : Byte) (k : NoticeKind) : (s.post h t k).pending = s.pending := rfl
@[simp] theorem State.post_now (s : State) (h : HostId) (t : Byte) (k : NoticeKind) : (s.post h t k).now = s.now := rfl
@[simp] theorem State.post_nextTick (s : State) (h : HostId) (t : Byte) (k : NoticeKind) : (s.post h t k).nextTick = s.nextTick := rfl
@[simp] theorem State.post_resetn (s : State) (h : HostId) (t : Byte) (k : NoticeKind) : (s.post h t k).resetn = s.resetn := rfl
@[simp] theorem State.post_ports (s : State) (h : HostId) (t : Byte) (k : NoticeKind) : (s.post h t k).ports = s.ports := rfl
@[simp] theorem State.post_sessions (s : State) (h : HostId) (t : Byte) (k : NoticeKind) : (s.post h t k).sessions = s.sessions := rfl
@[simp] theorem State.post_slots (s : State) (h : HostId) (t : Byte) (k : NoticeKind) : (s.post h t k).slots = s.slots := rfl
@[simp] theorem State.post_eligible (s : State) (h : HostId) (t : Byte) (k : NoticeKind) : (s.post h t k).eligible = s.eligible := rfl
@[simp] theorem State.post_ctcLast (s : State) (h : HostId) (t : Byte) (k : NoticeKind) : (s.post h t k).ctcLast = s.ctcLast := rfl
@[simp] theorem State.post_cells (s : State) (h : HostId) (t : Byte) (k : NoticeKind) : (s.post h t k).cells = s.cells := rfl
@[simp] theorem State.post_lcaLast (s : State) (h : HostId) (t : Byte) (k : NoticeKind) : (s.post h t k).lcaLast = s.lcaLast := rfl
@[simp] theorem State.post_boards (s : State) (h : HostId) (t : Byte) (k : NoticeKind) : (s.post h t k).boards = s.boards.set h { (s.boards.get h).post t k with attn := !((s.boards.get h).post t k).isEmpty } := rfl
@[simp] theorem State.post_profile (s : State) (h : HostId) (t : Byte) (k : NoticeKind) : (s.post h t k).profile = s.profile := rfl
@[simp] theorem State.post_vote (s : State) (h : HostId) (t : Byte) (k : NoticeKind) : (s.post h t k).vote = s.vote := rfl
@[simp] theorem State.post_puLast (s : State) (h : HostId) (t : Byte) (k : NoticeKind) : (s.post h t k).puLast = s.puLast := rfl

/-! A board cleared changes the boards alone. -/

@[simp] theorem State.clearBoard_pending (s : State) (h : HostId) : (s.clearBoard h).pending = s.pending := rfl
@[simp] theorem State.clearBoard_now (s : State) (h : HostId) : (s.clearBoard h).now = s.now := rfl
@[simp] theorem State.clearBoard_nextTick (s : State) (h : HostId) : (s.clearBoard h).nextTick = s.nextTick := rfl
@[simp] theorem State.clearBoard_resetn (s : State) (h : HostId) : (s.clearBoard h).resetn = s.resetn := rfl
@[simp] theorem State.clearBoard_ports (s : State) (h : HostId) : (s.clearBoard h).ports = s.ports := rfl
@[simp] theorem State.clearBoard_sessions (s : State) (h : HostId) : (s.clearBoard h).sessions = s.sessions := rfl
@[simp] theorem State.clearBoard_slots (s : State) (h : HostId) : (s.clearBoard h).slots = s.slots := rfl
@[simp] theorem State.clearBoard_eligible (s : State) (h : HostId) : (s.clearBoard h).eligible = s.eligible := rfl
@[simp] theorem State.clearBoard_ctcLast (s : State) (h : HostId) : (s.clearBoard h).ctcLast = s.ctcLast := rfl
@[simp] theorem State.clearBoard_cells (s : State) (h : HostId) : (s.clearBoard h).cells = s.cells := rfl
@[simp] theorem State.clearBoard_lcaLast (s : State) (h : HostId) : (s.clearBoard h).lcaLast = s.lcaLast := rfl
@[simp] theorem State.clearBoard_boards (s : State) (h : HostId) : (s.clearBoard h).boards = s.boards.set h Board.empty := rfl
@[simp] theorem State.clearBoard_profile (s : State) (h : HostId) : (s.clearBoard h).profile = s.profile := rfl
@[simp] theorem State.clearBoard_vote (s : State) (h : HostId) : (s.clearBoard h).vote = s.vote := rfl
@[simp] theorem State.clearBoard_puLast (s : State) (h : HostId) : (s.clearBoard h).puLast = s.puLast := rfl

/-! The report of a holder gone changes the cells alone. -/

@[simp] theorem State.reportFree_pending (s : State) (r : Record) : (s.reportFree r).pending = s.pending := rfl
@[simp] theorem State.reportFree_now (s : State) (r : Record) : (s.reportFree r).now = s.now := rfl
@[simp] theorem State.reportFree_nextTick (s : State) (r : Record) : (s.reportFree r).nextTick = s.nextTick := rfl
@[simp] theorem State.reportFree_resetn (s : State) (r : Record) : (s.reportFree r).resetn = s.resetn := rfl
@[simp] theorem State.reportFree_ports (s : State) (r : Record) : (s.reportFree r).ports = s.ports := rfl
@[simp] theorem State.reportFree_sessions (s : State) (r : Record) : (s.reportFree r).sessions = s.sessions := rfl
@[simp] theorem State.reportFree_slots (s : State) (r : Record) : (s.reportFree r).slots = s.slots := rfl
@[simp] theorem State.reportFree_eligible (s : State) (r : Record) : (s.reportFree r).eligible = s.eligible := rfl
@[simp] theorem State.reportFree_ctcLast (s : State) (r : Record) : (s.reportFree r).ctcLast = s.ctcLast := rfl
@[simp] theorem State.reportFree_cells (s : State) (r : Record) : (s.reportFree r).cells = Table.ofFn fun l =>
      if r.names l then ((s.cells.get l).release).present (s.restOf l) else s.cells.get l := rfl
@[simp] theorem State.reportFree_lcaLast (s : State) (r : Record) : (s.reportFree r).lcaLast = s.lcaLast := rfl
@[simp] theorem State.reportFree_boards (s : State) (r : Record) : (s.reportFree r).boards = s.boards := rfl
@[simp] theorem State.reportFree_profile (s : State) (r : Record) : (s.reportFree r).profile = s.profile := rfl
@[simp] theorem State.reportFree_vote (s : State) (r : Record) : (s.reportFree r).vote = s.vote := rfl
@[simp] theorem State.reportFree_puLast (s : State) (r : Record) : (s.reportFree r).puLast = s.puLast := rfl

/-! The report of a passage between HELD and YIELDING changes the cells alone. -/

@[simp] theorem State.reportPass_pending (s : State) (r : Record) (st : RecState) : (s.reportPass r st).pending = s.pending := rfl
@[simp] theorem State.reportPass_now (s : State) (r : Record) (st : RecState) : (s.reportPass r st).now = s.now := rfl
@[simp] theorem State.reportPass_nextTick (s : State) (r : Record) (st : RecState) : (s.reportPass r st).nextTick = s.nextTick := rfl
@[simp] theorem State.reportPass_resetn (s : State) (r : Record) (st : RecState) : (s.reportPass r st).resetn = s.resetn := rfl
@[simp] theorem State.reportPass_ports (s : State) (r : Record) (st : RecState) : (s.reportPass r st).ports = s.ports := rfl
@[simp] theorem State.reportPass_sessions (s : State) (r : Record) (st : RecState) : (s.reportPass r st).sessions = s.sessions := rfl
@[simp] theorem State.reportPass_slots (s : State) (r : Record) (st : RecState) : (s.reportPass r st).slots = s.slots := rfl
@[simp] theorem State.reportPass_eligible (s : State) (r : Record) (st : RecState) : (s.reportPass r st).eligible = s.eligible := rfl
@[simp] theorem State.reportPass_ctcLast (s : State) (r : Record) (st : RecState) : (s.reportPass r st).ctcLast = s.ctcLast := rfl
@[simp] theorem State.reportPass_cells (s : State) (r : Record) (st : RecState) : (s.reportPass r st).cells = Table.ofFn fun l =>
      if r.names l then ((s.cells.get l).pass st).present (s.restOf l) else s.cells.get l := rfl
@[simp] theorem State.reportPass_lcaLast (s : State) (r : Record) (st : RecState) : (s.reportPass r st).lcaLast = s.lcaLast := rfl
@[simp] theorem State.reportPass_boards (s : State) (r : Record) (st : RecState) : (s.reportPass r st).boards = s.boards := rfl
@[simp] theorem State.reportPass_profile (s : State) (r : Record) (st : RecState) : (s.reportPass r st).profile = s.profile := rfl
@[simp] theorem State.reportPass_vote (s : State) (r : Record) (st : RecState) : (s.reportPass r st).vote = s.vote := rfl
@[simp] theorem State.reportPass_puLast (s : State) (r : Record) (st : RecState) : (s.reportPass r st).puLast = s.puLast := rfl

/-! The report of a settling holder changes the cells alone. -/

@[simp] theorem State.reportSettling_pending (s : State) (i : SlotId) (r : Record) : (s.reportSettling i r).pending = s.pending := rfl
@[simp] theorem State.reportSettling_now (s : State) (i : SlotId) (r : Record) : (s.reportSettling i r).now = s.now := rfl
@[simp] theorem State.reportSettling_nextTick (s : State) (i : SlotId) (r : Record) : (s.reportSettling i r).nextTick = s.nextTick := rfl
@[simp] theorem State.reportSettling_resetn (s : State) (i : SlotId) (r : Record) : (s.reportSettling i r).resetn = s.resetn := rfl
@[simp] theorem State.reportSettling_ports (s : State) (i : SlotId) (r : Record) : (s.reportSettling i r).ports = s.ports := rfl
@[simp] theorem State.reportSettling_sessions (s : State) (i : SlotId) (r : Record) : (s.reportSettling i r).sessions = s.sessions := rfl
@[simp] theorem State.reportSettling_slots (s : State) (i : SlotId) (r : Record) : (s.reportSettling i r).slots = s.slots := rfl
@[simp] theorem State.reportSettling_eligible (s : State) (i : SlotId) (r : Record) : (s.reportSettling i r).eligible = s.eligible := rfl
@[simp] theorem State.reportSettling_ctcLast (s : State) (i : SlotId) (r : Record) : (s.reportSettling i r).ctcLast = s.ctcLast := rfl
@[simp] theorem State.reportSettling_cells (s : State) (i : SlotId) (r : Record) : (s.reportSettling i r).cells = Table.ofFn fun l =>
      if r.names l then ((s.cells.get l).settle (r.holder i)).present (s.restOf l) else s.cells.get l := rfl
@[simp] theorem State.reportSettling_lcaLast (s : State) (i : SlotId) (r : Record) : (s.reportSettling i r).lcaLast = s.lcaLast := rfl
@[simp] theorem State.reportSettling_boards (s : State) (i : SlotId) (r : Record) : (s.reportSettling i r).boards = s.boards := rfl
@[simp] theorem State.reportSettling_profile (s : State) (i : SlotId) (r : Record) : (s.reportSettling i r).profile = s.profile := rfl
@[simp] theorem State.reportSettling_vote (s : State) (i : SlotId) (r : Record) : (s.reportSettling i r).vote = s.vote := rfl
@[simp] theorem State.reportSettling_puLast (s : State) (i : SlotId) (r : Record) : (s.reportSettling i r).puLast = s.puLast := rfl

/-! A record put in a slot changes the table alone. -/

@[simp] theorem State.putRecord_pending (s : State) (i : SlotId) (r : Record) : (s.putRecord i r).pending = s.pending := rfl
@[simp] theorem State.putRecord_now (s : State) (i : SlotId) (r : Record) : (s.putRecord i r).now = s.now := rfl
@[simp] theorem State.putRecord_nextTick (s : State) (i : SlotId) (r : Record) : (s.putRecord i r).nextTick = s.nextTick := rfl
@[simp] theorem State.putRecord_resetn (s : State) (i : SlotId) (r : Record) : (s.putRecord i r).resetn = s.resetn := rfl
@[simp] theorem State.putRecord_ports (s : State) (i : SlotId) (r : Record) : (s.putRecord i r).ports = s.ports := rfl
@[simp] theorem State.putRecord_sessions (s : State) (i : SlotId) (r : Record) : (s.putRecord i r).sessions = s.sessions := rfl
@[simp] theorem State.putRecord_slots (s : State) (i : SlotId) (r : Record) : (s.putRecord i r).slots = s.slots.set i (some r) := rfl
@[simp] theorem State.putRecord_eligible (s : State) (i : SlotId) (r : Record) : (s.putRecord i r).eligible = s.eligible := rfl
@[simp] theorem State.putRecord_ctcLast (s : State) (i : SlotId) (r : Record) : (s.putRecord i r).ctcLast = s.ctcLast := rfl
@[simp] theorem State.putRecord_cells (s : State) (i : SlotId) (r : Record) : (s.putRecord i r).cells = s.cells := rfl
@[simp] theorem State.putRecord_lcaLast (s : State) (i : SlotId) (r : Record) : (s.putRecord i r).lcaLast = s.lcaLast := rfl
@[simp] theorem State.putRecord_boards (s : State) (i : SlotId) (r : Record) : (s.putRecord i r).boards = s.boards := rfl
@[simp] theorem State.putRecord_profile (s : State) (i : SlotId) (r : Record) : (s.putRecord i r).profile = s.profile := rfl
@[simp] theorem State.putRecord_vote (s : State) (i : SlotId) (r : Record) : (s.putRecord i r).vote = s.vote := rfl
@[simp] theorem State.putRecord_puLast (s : State) (i : SlotId) (r : Record) : (s.putRecord i r).puLast = s.puLast := rfl

/-! A change of the cells changes the cells alone. -/

@[simp] theorem State.mapCells_pending (s : State) (f : LineId → Cell → Cell) : (s.mapCells f).pending = s.pending := rfl
@[simp] theorem State.mapCells_now (s : State) (f : LineId → Cell → Cell) : (s.mapCells f).now = s.now := rfl
@[simp] theorem State.mapCells_nextTick (s : State) (f : LineId → Cell → Cell) : (s.mapCells f).nextTick = s.nextTick := rfl
@[simp] theorem State.mapCells_resetn (s : State) (f : LineId → Cell → Cell) : (s.mapCells f).resetn = s.resetn := rfl
@[simp] theorem State.mapCells_ports (s : State) (f : LineId → Cell → Cell) : (s.mapCells f).ports = s.ports := rfl
@[simp] theorem State.mapCells_sessions (s : State) (f : LineId → Cell → Cell) : (s.mapCells f).sessions = s.sessions := rfl
@[simp] theorem State.mapCells_slots (s : State) (f : LineId → Cell → Cell) : (s.mapCells f).slots = s.slots := rfl
@[simp] theorem State.mapCells_eligible (s : State) (f : LineId → Cell → Cell) : (s.mapCells f).eligible = s.eligible := rfl
@[simp] theorem State.mapCells_ctcLast (s : State) (f : LineId → Cell → Cell) : (s.mapCells f).ctcLast = s.ctcLast := rfl
@[simp] theorem State.mapCells_cells (s : State) (f : LineId → Cell → Cell) : (s.mapCells f).cells = Table.ofFn fun l => f l (s.cells.get l) := rfl
@[simp] theorem State.mapCells_lcaLast (s : State) (f : LineId → Cell → Cell) : (s.mapCells f).lcaLast = s.lcaLast := rfl
@[simp] theorem State.mapCells_boards (s : State) (f : LineId → Cell → Cell) : (s.mapCells f).boards = s.boards := rfl
@[simp] theorem State.mapCells_profile (s : State) (f : LineId → Cell → Cell) : (s.mapCells f).profile = s.profile := rfl
@[simp] theorem State.mapCells_vote (s : State) (f : LineId → Cell → Cell) : (s.mapCells f).vote = s.vote := rfl
@[simp] theorem State.mapCells_puLast (s : State) (f : LineId → Cell → Cell) : (s.mapCells f).puLast = s.puLast := rfl

/-! The end of a vote changes the vote and the vote flags alone. -/

@[simp] theorem State.endVote_pending (s : State) : (s.endVote).pending = s.pending := rfl
@[simp] theorem State.endVote_now (s : State) : (s.endVote).now = s.now := rfl
@[simp] theorem State.endVote_nextTick (s : State) : (s.endVote).nextTick = s.nextTick := rfl
@[simp] theorem State.endVote_resetn (s : State) : (s.endVote).resetn = s.resetn := rfl
@[simp] theorem State.endVote_ports (s : State) : (s.endVote).ports = s.ports := rfl
@[simp] theorem State.endVote_sessions (s : State) : (s.endVote).sessions = Table.ofFn fun h => { s.sessions.get h with voted := false } := rfl
@[simp] theorem State.endVote_slots (s : State) : (s.endVote).slots = s.slots := rfl
@[simp] theorem State.endVote_eligible (s : State) : (s.endVote).eligible = s.eligible := rfl
@[simp] theorem State.endVote_ctcLast (s : State) : (s.endVote).ctcLast = s.ctcLast := rfl
@[simp] theorem State.endVote_cells (s : State) : (s.endVote).cells = s.cells := rfl
@[simp] theorem State.endVote_lcaLast (s : State) : (s.endVote).lcaLast = s.lcaLast := rfl
@[simp] theorem State.endVote_boards (s : State) : (s.endVote).boards = s.boards := rfl
@[simp] theorem State.endVote_profile (s : State) : (s.endVote).profile = s.profile := rfl
@[simp] theorem State.endVote_vote (s : State) : (s.endVote).vote = { running := false, deadline := none, required := 0#4, voted := 0#4 } := rfl
@[simp] theorem State.endVote_puLast (s : State) : (s.endVote).puLast = s.puLast := rfl

/-! The stored masks and rest states change the profile alone. -/

@[simp] theorem State.storeLines_pending (s : State) (es : List (LineId × LineProfile)) : (s.storeLines es).pending = s.pending := rfl
@[simp] theorem State.storeLines_now (s : State) (es : List (LineId × LineProfile)) : (s.storeLines es).now = s.now := rfl
@[simp] theorem State.storeLines_nextTick (s : State) (es : List (LineId × LineProfile)) : (s.storeLines es).nextTick = s.nextTick := rfl
@[simp] theorem State.storeLines_resetn (s : State) (es : List (LineId × LineProfile)) : (s.storeLines es).resetn = s.resetn := rfl
@[simp] theorem State.storeLines_ports (s : State) (es : List (LineId × LineProfile)) : (s.storeLines es).ports = s.ports := rfl
@[simp] theorem State.storeLines_sessions (s : State) (es : List (LineId × LineProfile)) : (s.storeLines es).sessions = s.sessions := rfl
@[simp] theorem State.storeLines_slots (s : State) (es : List (LineId × LineProfile)) : (s.storeLines es).slots = s.slots := rfl
@[simp] theorem State.storeLines_eligible (s : State) (es : List (LineId × LineProfile)) : (s.storeLines es).eligible = s.eligible := rfl
@[simp] theorem State.storeLines_ctcLast (s : State) (es : List (LineId × LineProfile)) : (s.storeLines es).ctcLast = s.ctcLast := rfl
@[simp] theorem State.storeLines_cells (s : State) (es : List (LineId × LineProfile)) : (s.storeLines es).cells = s.cells := rfl
@[simp] theorem State.storeLines_lcaLast (s : State) (es : List (LineId × LineProfile)) : (s.storeLines es).lcaLast = s.lcaLast := rfl
@[simp] theorem State.storeLines_boards (s : State) (es : List (LineId × LineProfile)) : (s.storeLines es).boards = s.boards := rfl
@[simp] theorem State.storeLines_profile (s : State) (es : List (LineId × LineProfile)) : (s.storeLines es).profile = { s.profile with lines := Table.ofFn fun l => (entryFor es l).getD (s.profile.lines.get l) } := rfl
@[simp] theorem State.storeLines_vote (s : State) (es : List (LineId × LineProfile)) : (s.storeLines es).vote = s.vote := rfl
@[simp] theorem State.storeLines_puLast (s : State) (es : List (LineId × LineProfile)) : (s.storeLines es).puLast = s.puLast := rfl

/-! A host's profile changes the profile alone. -/

@[simp] theorem State.setHost_pending (s : State) (a : HostArgs) : (s.setHost a).pending = s.pending := rfl
@[simp] theorem State.setHost_now (s : State) (a : HostArgs) : (s.setHost a).now = s.now := rfl
@[simp] theorem State.setHost_nextTick (s : State) (a : HostArgs) : (s.setHost a).nextTick = s.nextTick := rfl
@[simp] theorem State.setHost_resetn (s : State) (a : HostArgs) : (s.setHost a).resetn = s.resetn := rfl
@[simp] theorem State.setHost_ports (s : State) (a : HostArgs) : (s.setHost a).ports = s.ports := rfl
@[simp] theorem State.setHost_sessions (s : State) (a : HostArgs) : (s.setHost a).sessions = s.sessions := rfl
@[simp] theorem State.setHost_slots (s : State) (a : HostArgs) : (s.setHost a).slots = s.slots := rfl
@[simp] theorem State.setHost_eligible (s : State) (a : HostArgs) : (s.setHost a).eligible = s.eligible := rfl
@[simp] theorem State.setHost_ctcLast (s : State) (a : HostArgs) : (s.setHost a).ctcLast = s.ctcLast := rfl
@[simp] theorem State.setHost_cells (s : State) (a : HostArgs) : (s.setHost a).cells = s.cells := rfl
@[simp] theorem State.setHost_lcaLast (s : State) (a : HostArgs) : (s.setHost a).lcaLast = s.lcaLast := rfl
@[simp] theorem State.setHost_boards (s : State) (a : HostArgs) : (s.setHost a).boards = s.boards := rfl
@[simp] theorem State.setHost_profile (s : State) (a : HostArgs) : (s.setHost a).profile = { s.profile with
      hosts := s.profile.hosts.set a.host { priority := a.priority, quota := a.quota }
      admin := if a.admin then s.profile.admin ||| bitOf a.host else s.profile.admin &&& ~~~ bitOf a.host } := rfl
@[simp] theorem State.setHost_vote (s : State) (a : HostArgs) : (s.setHost a).vote = s.vote := rfl
@[simp] theorem State.setHost_puLast (s : State) (a : HostArgs) : (s.setHost a).puLast = s.puLast := rfl

/-! The timing values change the profile alone. -/

@[simp] theorem State.setTiming_pending (s : State) (a : TimingArgs) : (s.setTiming a).pending = s.pending := rfl
@[simp] theorem State.setTiming_now (s : State) (a : TimingArgs) : (s.setTiming a).now = s.now := rfl
@[simp] theorem State.setTiming_nextTick (s : State) (a : TimingArgs) : (s.setTiming a).nextTick = s.nextTick := rfl
@[simp] theorem State.setTiming_resetn (s : State) (a : TimingArgs) : (s.setTiming a).resetn = s.resetn := rfl
@[simp] theorem State.setTiming_ports (s : State) (a : TimingArgs) : (s.setTiming a).ports = s.ports := rfl
@[simp] theorem State.setTiming_sessions (s : State) (a : TimingArgs) : (s.setTiming a).sessions = s.sessions := rfl
@[simp] theorem State.setTiming_slots (s : State) (a : TimingArgs) : (s.setTiming a).slots = s.slots := rfl
@[simp] theorem State.setTiming_eligible (s : State) (a : TimingArgs) : (s.setTiming a).eligible = s.eligible := rfl
@[simp] theorem State.setTiming_ctcLast (s : State) (a : TimingArgs) : (s.setTiming a).ctcLast = s.ctcLast := rfl
@[simp] theorem State.setTiming_cells (s : State) (a : TimingArgs) : (s.setTiming a).cells = s.cells := rfl
@[simp] theorem State.setTiming_lcaLast (s : State) (a : TimingArgs) : (s.setTiming a).lcaLast = s.lcaLast := rfl
@[simp] theorem State.setTiming_boards (s : State) (a : TimingArgs) : (s.setTiming a).boards = s.boards := rfl
@[simp] theorem State.setTiming_profile (s : State) (a : TimingArgs) : (s.setTiming a).profile = { s.profile with settle := a.settle, yieldWindow := a.yieldWindow, voteWindow := a.voteWindow } := rfl
@[simp] theorem State.setTiming_vote (s : State) (a : TimingArgs) : (s.setTiming a).vote = s.vote := rfl
@[simp] theorem State.setTiming_puLast (s : State) (a : TimingArgs) : (s.setTiming a).puLast = s.puLast := rfl

/-! A bond set or removed changes the profile alone. -/

@[simp] theorem State.setBonded_pending (s : State) (g : GroupId) (v : Bool) : (s.setBonded g v).pending = s.pending := rfl
@[simp] theorem State.setBonded_now (s : State) (g : GroupId) (v : Bool) : (s.setBonded g v).now = s.now := rfl
@[simp] theorem State.setBonded_nextTick (s : State) (g : GroupId) (v : Bool) : (s.setBonded g v).nextTick = s.nextTick := rfl
@[simp] theorem State.setBonded_resetn (s : State) (g : GroupId) (v : Bool) : (s.setBonded g v).resetn = s.resetn := rfl
@[simp] theorem State.setBonded_ports (s : State) (g : GroupId) (v : Bool) : (s.setBonded g v).ports = s.ports := rfl
@[simp] theorem State.setBonded_sessions (s : State) (g : GroupId) (v : Bool) : (s.setBonded g v).sessions = s.sessions := rfl
@[simp] theorem State.setBonded_slots (s : State) (g : GroupId) (v : Bool) : (s.setBonded g v).slots = s.slots := rfl
@[simp] theorem State.setBonded_eligible (s : State) (g : GroupId) (v : Bool) : (s.setBonded g v).eligible = s.eligible := rfl
@[simp] theorem State.setBonded_ctcLast (s : State) (g : GroupId) (v : Bool) : (s.setBonded g v).ctcLast = s.ctcLast := rfl
@[simp] theorem State.setBonded_cells (s : State) (g : GroupId) (v : Bool) : (s.setBonded g v).cells = s.cells := rfl
@[simp] theorem State.setBonded_lcaLast (s : State) (g : GroupId) (v : Bool) : (s.setBonded g v).lcaLast = s.lcaLast := rfl
@[simp] theorem State.setBonded_boards (s : State) (g : GroupId) (v : Bool) : (s.setBonded g v).boards = s.boards := rfl
@[simp] theorem State.setBonded_profile (s : State) (g : GroupId) (v : Bool) : (s.setBonded g v).profile = { s.profile with
      bonded := if v then s.profile.bonded ||| bitOf g else s.profile.bonded &&& ~~~ bitOf g } := rfl
@[simp] theorem State.setBonded_vote (s : State) (g : GroupId) (v : Bool) : (s.setBonded g v).vote = s.vote := rfl
@[simp] theorem State.setBonded_puLast (s : State) (g : GroupId) (v : Bool) : (s.setBonded g v).puLast = s.puLast := rfl

/-! A block that serves a link changes its own last-served link alone. -/

@[simp] theorem State.serve_pending (s : State) (o : Owner) (n : HostId) : (s.serve o n).pending = s.pending := by cases o <;> rfl
@[simp] theorem State.serve_now (s : State) (o : Owner) (n : HostId) : (s.serve o n).now = s.now := by cases o <;> rfl
@[simp] theorem State.serve_nextTick (s : State) (o : Owner) (n : HostId) : (s.serve o n).nextTick = s.nextTick := by cases o <;> rfl
@[simp] theorem State.serve_resetn (s : State) (o : Owner) (n : HostId) : (s.serve o n).resetn = s.resetn := by cases o <;> rfl
@[simp] theorem State.serve_ports (s : State) (o : Owner) (n : HostId) : (s.serve o n).ports = s.ports := by cases o <;> rfl
@[simp] theorem State.serve_sessions (s : State) (o : Owner) (n : HostId) : (s.serve o n).sessions = s.sessions := by cases o <;> rfl
@[simp] theorem State.serve_slots (s : State) (o : Owner) (n : HostId) : (s.serve o n).slots = s.slots := by cases o <;> rfl
@[simp] theorem State.serve_eligible (s : State) (o : Owner) (n : HostId) : (s.serve o n).eligible = s.eligible := by cases o <;> rfl
@[simp] theorem State.serve_ctcLast (s : State) (o : Owner) (n : HostId) :
    (s.serve o n).ctcLast = if o = .claimTable then n else s.ctcLast := by cases o <;> rfl
@[simp] theorem State.serve_cells (s : State) (o : Owner) (n : HostId) : (s.serve o n).cells = s.cells := by cases o <;> rfl
@[simp] theorem State.serve_lcaLast (s : State) (o : Owner) (n : HostId) :
    (s.serve o n).lcaLast = if o = .lineCells then n else s.lcaLast := by cases o <;> rfl
@[simp] theorem State.serve_boards (s : State) (o : Owner) (n : HostId) : (s.serve o n).boards = s.boards := by cases o <;> rfl
@[simp] theorem State.serve_profile (s : State) (o : Owner) (n : HostId) : (s.serve o n).profile = s.profile := by cases o <;> rfl
@[simp] theorem State.serve_vote (s : State) (o : Owner) (n : HostId) : (s.serve o n).vote = s.vote := by cases o <;> rfl
@[simp] theorem State.serve_puLast (s : State) (o : Owner) (n : HostId) :
    (s.serve o n).puLast = if o = .profileUnit then n else s.puLast := by cases o <;> rfl

end Sys2Proof.Machine
end

