-- ==== Sys2Proof/Laws/Ops.lean ====
section
/-! SUPPORT. What the shared operations can do, said once for each: boards, ports, sessions, the choice among links, taking a
request, lists in order. -/

namespace Sys2Proof.Machine

/-! ## Lists in order -/

/-- Inserting adds the one member. -/
theorem insertBy_perm {α : Type} (before : α → α → Bool) (a : α) (l : List α) :
    (insertBy before a l).Perm (a :: l) := by
  induction l with
  | nil => rfl
  | cons b bs ih =>
    simp only [insertBy]
    split
    · exact (ih.cons b).trans (List.Perm.swap a b bs)
    · rfl

/-- Sorting keeps the members. -/
theorem sortBy_perm {α : Type} (before : α → α → Bool) (l : List α) : (sortBy before l).Perm l := by
  induction l with
  | nil => rfl
  | cons a l ih => exact (insertBy_perm before a _).trans (ih.cons a)

/-- Sorting keeps membership. -/
@[simp] theorem mem_sortBy {α : Type} (before : α → α → Bool) (l : List α) (x : α) : x ∈ sortBy before l ↔ x ∈ l :=
  (sortBy_perm before l).mem_iff

/-- Inserting into a list in order gives a list in order, for an order in which `a` not before `b` and `b` not before `c` mean `a`
not before `c`. -/
theorem insertBy_ordered {α : Type} (before : α → α → Bool)
    (asymm : ∀ x y, before x y = true → before y x = false)
    (trans : ∀ x y z, before y x = false → before z y = false → before z x = false) (a : α) (l : List α)
    (h : l.Pairwise fun x y => before y x = false) : (insertBy before a l).Pairwise fun x y => before y x = false := by
  induction l with
  | nil => simp [insertBy]
  | cons b bs ih =>
    rw [List.pairwise_cons] at h
    simp only [insertBy]
    split
    · rename_i hb
      rw [List.pairwise_cons]
      refine ⟨fun x hx => ?_, ih h.2⟩
      rcases List.mem_cons.mp ((insertBy_perm before a bs).mem_iff.mp hx) with rfl | hx
      · exact asymm _ _ hb
      · exact h.1 x hx
    · rename_i hb
      have hab : before b a = false := by simpa using hb
      refine List.pairwise_cons.mpr ⟨fun x hx => ?_, List.pairwise_cons.mpr h⟩
      rcases List.mem_cons.mp hx with rfl | hx
      · exact hab
      · exact trans _ _ _ hab (h.1 x hx)

/-- A sorted list is in order. -/
theorem sortBy_ordered {α : Type} (before : α → α → Bool)
    (asymm : ∀ x y, before x y = true → before y x = false)
    (trans : ∀ x y z, before y x = false → before z y = false → before z x = false) (l : List α) :
    (sortBy before l).Pairwise fun x y => before y x = false := by
  induction l with
  | nil => exact List.Pairwise.nil
  | cons a l ih => exact insertBy_ordered before asymm trans a _ ih

/-! ## Time left -/

/-- A report of a time left never exceeds the interval less one (R26, R146). -/
theorem unitsLeft_le (now d unit span : Nat) : unitsLeft now d unit span ≤ span - 1 := Nat.min_le_right _ _

/-- Once time has passed since a deadline was set, a report of the time left is the interval to it in whole units, rounded down
(R26). -/
theorem unitsLeft_of_elapsed {set now unit span : Nat} (hu : 0 < unit) (h : set < now) :
    unitsLeft now (set + span * unit) unit span = (set + span * unit - now) / unit := by
  apply Nat.min_eq_left
  rcases Nat.eq_zero_or_pos (set + span * unit - now) with h0 | h0
  · simp [h0]
  · have : (set + span * unit - now) / unit < span := by rw [Nat.div_lt_iff_lt_mul hu]; omega
    omega

/-! ## Pins -/

/-- What a cell presents for a setting is what the table of R71 says. -/
@[simp] theorem presentedOf_eq (st : Setting) : presentedOf st = st.pin := by
  obtain ⟨m, l, w, f⟩ := st
  cases m <;> cases l <;> rfl

/-- What a cell presents at rest is what the table of R72 says. -/
@[simp] theorem restPresented_eq (r : Rest) : restPresented r = r.pin := by cases r <;> rfl

/-! ## Boards -/

/-- A board is empty exactly when it is bare (R106). -/
theorem Board.isEmpty_iff (b : Board) : b.isEmpty = true ↔ b.bare := by
  simp [Board.isEmpty, Board.bare, List.isEmpty_iff, and_assoc]

/-- A board put in place has its ATTN asserted exactly while it is not bare (R114). -/
theorem State.putBoard_attn (s : State) (h : HostId) (b : Board) :
    ((s.putBoard h b).boards.get h).attn = true ↔ ¬ b.bare := by
  simp [← Board.isEmpty_iff]

/-- The tickets on a board after a post: the ticket, and those before (R107). -/
theorem mem_tickets_postNotice (t u : Byte) (k : NoticeKind) (l : List (Byte × NoticeKind)) :
    u ∈ (postNotice t k l).map (fun x => x.1) ↔ u = t ∨ u ∈ l.map (fun x => x.1) := by
  induction l with
  | nil => simp [postNotice]
  | cons x rest ih =>
    obtain ⟨v, j⟩ := x
    simp only [postNotice]
    split
    · simp
    · split
      · rename_i h; subst h; simp
      · simp only [List.map_cons, List.mem_cons, ih]; tauto

/-- A post keeps the notices in ascending ticket order (R106, R107). -/
theorem postNotice_ascending (t : Byte) (k : NoticeKind) (l : List (Byte × NoticeKind))
    (h : l.Pairwise fun x y => x.1.toNat < y.1.toNat) :
    (postNotice t k l).Pairwise fun x y => x.1.toNat < y.1.toNat := by
  induction l with
  | nil => simp [postNotice]
  | cons x rest ih =>
    obtain ⟨v, j⟩ := x
    have hc := List.pairwise_cons.mp h
    simp only [postNotice]
    split
    · rename_i hlt
      refine List.pairwise_cons.mpr ⟨fun y hy => ?_, h⟩
      rcases List.mem_cons.mp hy with rfl | hy
      · exact hlt
      · exact Nat.lt_trans hlt (hc.1 y hy)
    · rename_i hlt
      split
      · rename_i he; subst he
        exact List.pairwise_cons.mpr ⟨fun y hy => hc.1 y hy, hc.2⟩
      · rename_i hne
        have hvt : v.toNat < t.toNat := by
          have : t.toNat ≠ v.toNat := fun e => hne (BitVec.eq_of_toNat_eq e)
          omega
        refine List.pairwise_cons.mpr ⟨fun y hy => ?_, ih hc.2⟩
        have hm := (mem_tickets_postNotice t y.1 k rest).mp (List.mem_map_of_mem hy)
        rcases hm with e | hm
        · simpa [e] using hvt
        · obtain ⟨z, hz, e⟩ := List.mem_map.mp hm
          simpa [e] using hc.1 z hz

/-- A notice kept by an unpost is one that was there, for another ticket (R8). -/
@[simp] theorem Board.mem_unpost (b : Board) (t : Byte) (x : Byte × NoticeKind) :
    x ∈ (b.unpost t).notices ↔ x ∈ b.notices ∧ x.1 ≠ t := by
  simp [Board.unpost]

/-! ## Every host of a set -/

/-- What holds at the start, and is kept at each host of the set, holds at the end. -/
theorem State.forHosts_induct (P : State → Prop) (s : State) (w : HostSet) (f : State → HostId → State) (h0 : P s)
    (step : ∀ t h, has w h = true → P t → P (f t h)) : P (s.forHosts w f) := by
  unfold State.forHosts
  generalize List.finRange 4 = hosts
  induction hosts generalizing s with
  | nil => exact h0
  | cons h hs ih =>
    rw [List.foldl_cons]
    refine ih _ ?_
    split
    · exact step _ _ ‹_› h0
    · exact h0

/-! ## Ports and sessions -/

/-- The request in hand is the one the port waits with (R149). -/
theorem State.inHand_eq_some (s : State) (n : HostId) (q : Request) : s.inHand n = some q ↔ s.waits n q := by
  unfold State.inHand State.waits
  split <;> simp_all

/-- Admission refuses exactly what R92 refuses. -/
theorem admission_eq_none (c : Session) (k : Kind) (e : BitVec 16) : admission c k e = none ↔ c.admits k e := by
  unfold admission Session.admits SessState.allows allowedIn
  cases hs : c.state <;> cases k <;> simp

/-- The recheck passes exactly a request whose session is ATTACHED under its epoch, and a FETCH NOTICES in LAPSED under its
epoch (R94). -/
theorem recheck_eq_none (c : Session) (k : Kind) (e : BitVec 16) :
    recheck c k e = none ↔ e = c.epoch ∧ (c.state = .attached ∨ (c.state = .lapsed ∧ k = .fetchNotices)) := by
  unfold recheck
  cases hs : c.state <;> simp

/-- An admission refreshes the one session, while ATTACHED (R93). -/
theorem State.refresh_eq (s : State) (h : HostId) :
    s.refresh h = s.putSession h ((s.sessions.get h).refreshed s.now) := by
  unfold State.refresh Session.refreshed State.heartbeatEnd Config.heartbeatUnit
  simp only
  split
  · rfl
  · simp [State.putSession]

/-! ## The choice among links -/

/-- The link chosen presents. -/
theorem presents_of_nextLink {last n : HostId} {p : HostId → Bool} (h : nextLink last p = some n) : p n = true :=
  List.find?_some h

/-- No link is chosen exactly when none presents. -/
theorem nextLink_eq_none (last : HostId) (p : HostId → Bool) : nextLink last p = none ↔ ∀ n, p n = false := by
  simp only [nextLink, List.find?_eq_none, List.mem_cons, List.not_mem_nil, or_false, Bool.not_eq_true]
  constructor
  · intro h n
    exact h n ((by decide : ∀ a b : HostId, b = a + 1 ∨ b = a + 2 ∨ b = a + 3 ∨ b = a) last n)
  · intro h n _
    exact h n

/-- Port `n` presents to a block exactly a request whose kind the block owns. -/
theorem State.presents_iff (s : State) (o : Owner) (n : HostId) :
    s.presents o n = true ↔ ∃ q, s.waits n q ∧ q.kind.owner = o := by
  unfold State.presents
  cases h : s.inHand n with
  | none =>
    refine ⟨fun e => by simp at e, fun ⟨q, hq, _⟩ => ?_⟩
    rw [← State.inHand_eq_some, h] at hq
    cases hq
  | some r =>
    rw [State.inHand_eq_some] at h
    refine ⟨fun e => ⟨r, h, by simpa using e⟩, fun ⟨q, hq, e⟩ => ?_⟩
    have : r = q := Option.some.inj (h.2.symm.trans hq.2)
    subst this
    simpa using e

/-! ## Taking a request -/

/-- A taken request is refused by the recheck, with nothing changed but the port, or handled and answered. -/
theorem State.take_cases (s : State) (n : HostId) (q : Request) (f : State → HostId → Request → State × Answer) :
    (∃ st, recheck (s.sessions.get n) q.kind q.epoch = some st ∧ s.take n q f = s.reply n q (bare st))
      ∨ (recheck (s.sessions.get n) q.kind q.epoch = none ∧ s.take n q f = (f s n q).1.reply n q (f s n q).2) := by
  unfold State.take
  cases h : recheck (s.sessions.get n) q.kind q.epoch with
  | some st => exact .inl ⟨st, rfl, rfl⟩
  | none => exact .inr ⟨rfl, rfl⟩

/-- A block with an arbiter takes the request it is offered. -/
theorem State.takeChosen_of_offers {s : State} {k : Kind} {n : HostId} {q : Request} (h : s.offers k n q)
    (f : State → HostId → Request → State × Answer) :
    s.takeChosen k f = (s.serve k.owner n).take n q f := by
  obtain ⟨hr, hw, hk, hc⟩ := h
  have hi := (State.inHand_eq_some s n q).mpr hw
  unfold State.takeChosen
  simp [hr, hc, hi, hk]

/-- A block with an arbiter takes what it is offered, or nothing. -/
theorem State.takeChosen_cases (s : State) (k : Kind) (f : State → HostId → Request → State × Answer) :
    s.takeChosen k f = s
      ∨ ∃ n q, s.offers k n q ∧ s.takeChosen k f = (s.serve k.owner n).take n q f := by
  unfold State.takeChosen
  split
  · rename_i hr
    split
    · rename_i n hc
      split
      · rename_i q hq
        split
        · rename_i hk
          exact .inr ⟨n, q, ⟨hr, (State.inHand_eq_some s n q).mp hq, hk, hc⟩, rfl⟩
        · exact .inl rfl
      · exact .inl rfl
    · exact .inl rfl
  · exact .inl rfl

/-- The Notice Board takes port `n`'s request of its kind, or nothing. -/
theorem State.takeAt_cases (s : State) (n : HostId) (k : Kind) (f : State → HostId → Request → State × Answer) :
    s.takeAt n k f = s
      ∨ ∃ q, s.resetn = true ∧ s.waits n q ∧ q.kind = k ∧ s.takeAt n k f = s.take n q f := by
  unfold State.takeAt
  split
  · rename_i hr
    split
    · rename_i q hq
      split
      · rename_i hk
        exact .inr ⟨q, hr, (State.inHand_eq_some s n q).mp hq, hk, rfl⟩
      · exact .inl rfl
    · exact .inl rfl
  · exact .inl rfl

/-- The Session Unit takes nothing, or refuses port `n`'s request at its admission, or refreshes, handles and answers it. -/
theorem State.takeSession_cases (s : State) (n : HostId) (k : Kind)
    (f : State → HostId → Request → Session → State × Answer) :
    s.takeSession n k f = s
      ∨ ∃ q, s.resetn = true ∧ s.waits n q ∧ q.kind = k
          ∧ ((∃ st, admission (s.sessions.get n) k q.epoch = some st ∧ s.takeSession n k f = s.reply n q (bare st))
            ∨ ((s.sessions.get n).admits k q.epoch
                ∧ s.takeSession n k f =
                  (f (s.refresh n) n q (s.sessions.get n)).1.reply n q (f (s.refresh n) n q (s.sessions.get n)).2)) := by
  unfold State.takeSession
  split
  · rename_i hr
    split
    · rename_i q hq
      have hw := (State.inHand_eq_some s n q).mp hq
      split
      · rename_i hk
        refine .inr ⟨q, hr, hw, hk, ?_⟩
        cases ha : admission (s.sessions.get n) k q.epoch with
        | some st => exact .inl ⟨st, rfl, rfl⟩
        | none => exact .inr ⟨(admission_eq_none _ _ _).mp ha, rfl⟩
      · exact .inl rfl
    · exact .inl rfl
  · exact .inl rfl

/-! ## Transactions -/

/-- The opener 0x3C makes a transaction a write of the bits after it, while RESETn is high and was when CSn fell (R150). -/
theorem State.transact_write (s : State) (n : HostId) (early : Bool) (bits : List Bool) :
    s.transact n early (writeOpener ++ bits) = if s.resetn && !early then s.write n bits else s.undriven n := by
  simp [State.transact, openerOf, writeOpener]

/-- The opener 0xC3 makes a transaction a read of as many clocks as follow it, whatever SDI carries then (R150). -/
theorem State.transact_read (s : State) (n : HostId) (early : Bool) (bits : List Bool) :
    s.transact n early (readOpener ++ bits) = if s.resetn && !early then s.read n bits.length else s.undriven n := by
  simp [State.transact, openerOf, writeOpener, readOpener]

/-- Any other opener, and none complete, make a transaction ignored (R150). -/
theorem State.transact_other (s : State) (n : HostId) (early : Bool) (bits : List Bool) (hw : bits.take 8 ≠ writeOpener)
    (hr : bits.take 8 ≠ readOpener) :
    s.transact n early bits = if s.resetn && !early then s.ignore n bits.length else s.undriven n := by
  unfold State.transact openerOf
  by_cases h : 8 ≤ bits.length <;> simp [h, hw, hr]

/-! ## Records and their lines -/

/-- A record names the lines of its entries. -/
theorem Record.names_iff (r : Record) (l : LineId) : r.names l = true ↔ ∃ e ∈ r.lines, e.line = l := by
  simp [Record.names]

/-- A record is live-holding exactly when it is not WAITING (R5). -/
@[simp] theorem Record.live_iff (r : Record) : r.live = true ↔ r.state ≠ .waiting := by
  simp [Record.live]

/-- The lines a record names, as a set. -/
@[simp] theorem Record.has_lineSet (r : Record) (l : LineId) : has r.lineSet l = r.names l := by
  simp [Record.lineSet]

/-- A record that names a line has a setting for it, and only then. -/
theorem Record.settingOf_isSome (r : Record) (l : LineId) : (r.settingOf l).isSome = r.names l := by
  unfold Record.settingOf Record.names
  rw [Option.isSome_map]
  induction r.lines with
  | nil => rfl
  | cons e es ih => cases h : e.line == l <;> simp [h, ih]

/-- The setting for a line is that of an entry for the line. -/
theorem Record.entry_of_settingOf {r : Record} {l : LineId} {st : Setting} (h : r.settingOf l = some st) :
    (⟨l, st⟩ : LineEntry) ∈ r.lines := by
  unfold Record.settingOf at h
  obtain ⟨e, he, rfl⟩ := Option.map_eq_some_iff.mp h
  have h1 := List.mem_of_find?_eq_some he
  have h2 := List.find?_some he
  obtain ⟨l', st'⟩ := e
  have : l' = l := by simpa using h2
  subst this
  exact h1

/-! ## What the line requests share -/

/-- A cell's claim is the applied setting of a HELD or YIELDING holder (R69). -/
theorem Cell.claimed_eq_some (c : Cell) (st : Setting) :
    c.claimed = some st ↔ (∃ h ∈ c.holder, h.state = .held ∨ h.state = .yielding) ∧ c.applied = some st := by
  unfold Cell.claimed
  cases c.holder with
  | none => simp
  | some h => by_cases hh : h.state = .held ∨ h.state = .yielding <;> simp [hh]

end Sys2Proof.Machine
end

