-- ==== Sys2Proof/Laws/Claims.lean ====
section
/-! SUPPORT. What the claim table's shared operations can do: the views of the table, granting, eligibility and freeing. -/

namespace Sys2Proof.Machine

/-! ## Views of the table -/

/-- The records of a table are those in its slots. -/
@[simp] theorem mem_recordsOf (t : Slots) (i : SlotId) (r : Record) : (i, r) ∈ recordsOf t ↔ r ∈ t.get i := by
  simp only [recordsOf, List.mem_filterMap, List.mem_finRange, true_and, Option.map_eq_some_iff, Prod.mk.injEq, Option.mem_def]
  constructor
  · rintro ⟨a, r', h, rfl, rfl⟩; exact h
  · intro h; exact ⟨i, r, h, rfl, rfl⟩

/-- The record a ticket names is in its slot, and is the host's, under that ticket (R11). -/
theorem findTicket_some {t : Slots} {h : HostId} {tk : Byte} {i : SlotId} {r : Record}
    (hf : findTicket t h tk = some (i, r)) : r ∈ t.get i ∧ r.owner = h ∧ r.ticket = tk := by
  have h1 := (mem_recordsOf t i r).mp (List.mem_of_find?_eq_some hf)
  have h2 := List.find?_some hf
  simp only [Bool.and_eq_true, beq_iff_eq] at h2
  exact ⟨h1, h2.1, h2.2⟩

/-- A ticket names no record exactly when the host has none under it. -/
theorem findTicket_none (t : Slots) (h : HostId) (tk : Byte) :
    findTicket t h tk = none ↔ ∀ i, ∀ r ∈ t.get i, r.owner = h → r.ticket ≠ tk := by
  simp only [findTicket, List.find?_eq_none]
  constructor
  · intro hn i r hr ho
    have := hn (i, r) ((mem_recordsOf t i r).mpr hr)
    simp only [Bool.and_eq_true, beq_iff_eq, not_and] at this
    exact this ho
  · rintro hn ⟨i, r⟩ hm
    have := hn i r ((mem_recordsOf t i r).mp hm)
    simpa using this

/-- A host's one record under a ticket is the record the ticket names. -/
theorem State.findTicket_of_owns {s : State} {n : HostId} {tk : Byte} {i : SlotId} {r : Record} (h : s.owns n tk i r) :
    findTicket s.slots n tk = some (i, r) := by
  obtain ⟨hr, ho, ht, hu⟩ := h
  cases hf : findTicket s.slots n tk with
  | none => exact absurd ht ((findTicket_none _ _ _).mp hf i r hr ho)
  | some x =>
    obtain ⟨j, w⟩ := x
    obtain ⟨hw, hwo, hwt⟩ := findTicket_some hf
    have := hu j w hw hwo hwt
    subst this
    have : w = r := Option.some.inj ((Option.mem_def.mp hw).symm.trans (Option.mem_def.mp hr))
    subst this
    rfl

/-- A line has a holder exactly when a live-holding record names it (R30). -/
theorem State.holderOf_isSome (s : State) (l : LineId) : (holderOf s.slots l).isSome = true ↔ s.lineHeld l := by
  simp only [holderOf, List.find?_isSome, State.lineHeld]
  constructor
  · rintro ⟨⟨i, r⟩, hm, hp⟩
    exact ⟨i, r, (mem_recordsOf _ _ _).mp hm, by simpa using hp⟩
  · rintro ⟨i, r, hr, h1, h2⟩
    exact ⟨(i, r), (mem_recordsOf _ _ _).mpr hr, by simpa using ⟨h1, h2⟩⟩

/-- The waiting order holds the WAITING records (R27). -/
theorem mem_waitingOrder (t : Slots) (i : SlotId) (r : Record) :
    (i, r) ∈ waitingOrder t ↔ r ∈ t.get i ∧ r.state = .waiting := by
  simp [waitingOrder, List.mem_filter]

/-- One record stands ahead of another as R27 says. -/
theorem ahead_iff (a b : SlotId × Record) : ahead a b = true ↔ a.2.before b.2 := by
  simp [ahead, Record.before]

/-- The waiting order is in order: none stands ahead of one before it (R27). -/
theorem waitingOrder_ordered (t : Slots) : (waitingOrder t).Pairwise fun x y => ¬ y.2.before x.2 := by
  have h := sortBy_ordered ahead (fun x y h => ?_) (fun x y z h1 h2 => ?_)
    ((recordsOf t).filter fun x => x.2.state == .waiting)
  · exact h.imp fun {x y} hxy => by rw [← ahead_iff, hxy]; simp
  · rw [ahead_iff] at h
    rw [← Bool.not_eq_true, ahead_iff]
    simp only [Record.before] at *
    omega
  · rw [← Bool.not_eq_true, ahead_iff] at h1 h2 ⊢
    simp only [Record.before] at *
    omega

/-- A slot found FREE is FREE, and the lowest (R1). -/
theorem State.lowestFree_of_freeSlot {s : State} {i : SlotId} (h : freeSlot s.slots = some i) : s.lowestFree i := by
  unfold freeSlot at h
  rw [List.find?_eq_some_iff_getElem] at h
  obtain ⟨h1, k, hk, hik, hlt⟩ := h
  refine ⟨by simpa using h1, fun j hj => ?_⟩
  have hki : k = i.val := by
    have := congrArg Fin.val hik
    simpa using this
  have := hlt j.val (by simpa [hki] using hj)
  intro hn
  simp [hn] at this

/-- No slot is found FREE exactly when every slot holds a record (R20). -/
theorem freeSlot_none (t : Slots) : freeSlot t = none ↔ ∀ i, t.get i ≠ none := by
  simp [freeSlot, List.find?_eq_none]

/-- The slots of the records that satisfy `p`. -/
@[simp] theorem mem_slotsWhere (t : Slots) (p : Record → Bool) (i : SlotId) :
    i ∈ slotsWhere t p ↔ ∃ r ∈ t.get i, p r = true := by
  simp only [slotsWhere, List.mem_map, List.mem_filter]
  constructor
  · rintro ⟨⟨j, r⟩, ⟨hm, hp⟩, rfl⟩
    exact ⟨r, (mem_recordsOf _ _ _).mp hm, hp⟩
  · rintro ⟨r, hr, hp⟩
    exact ⟨(i, r), ⟨(mem_recordsOf _ _ _).mpr hr, hp⟩, rfl⟩

/-! ## Records in a new state -/

/-- A record put in HELD is the statements' record in HELD (R4). -/
theorem Record.asHeld_eq (r : Record) : r.asHeld = r.inHeld := rfl

/-- A record put in YIELDING is the statements' record in YIELDING (R53). -/
theorem Record.asYielding_eq (r : Record) (now window : Nat) : r.asYielding now window = r.inYielding now window := rfl

/-- A record put in HELD or in SETTLING, as the settle time says, is the statements' record granted (R43, R44). -/
theorem Record.granted_eq (r : Record) (now settle : Nat) :
    r.granted now settle = if settle = 0 then r.asHeld else r.asSettling now settle := rfl

/-- The record a claim makes (R2), with its entry number and its wait end, is the statements'. -/
theorem newRecord_eq (s : State) (n : HostId) (a : ClaimArgs) :
    newRecord s n a = s.recordFor n a (nextEntry s.slots) s.now := by
  obtain ⟨tk, p, l, es⟩ := a
  rcases l with _ | _ | l <;> rfl

/-! ## The frame of an evaluation

From `s` to `t`, the table, the set of eligible preemptors, the cells and the boards alone may change, and no cell's sampling side. -/

/-- Only what the Claim Table Controller writes changes, and no cell samples. -/
def tableOnly (s t : State) : Prop :=
  t = { s with slots := t.slots, eligible := t.eligible, cells := t.cells, boards := t.boards } ∧ samplesKept s t

/-- Nothing changes. -/
theorem tableOnly.refl (s : State) : tableOnly s s := ⟨rfl, fun _ => ⟨rfl, rfl, rfl⟩⟩

/-- One change of the table's follows another. -/
theorem tableOnly.trans {s t u : State} (h1 : tableOnly s t) (h2 : tableOnly t u) : tableOnly s u := by
  obtain ⟨e1, k1⟩ := h1
  obtain ⟨e2, k2⟩ := h2
  refine ⟨by rw [e2, e1], fun l => ?_⟩
  have a := k1 l
  have b := k2 l
  exact ⟨b.1.trans a.1, b.2.1.trans a.2.1, b.2.2.trans a.2.2⟩

/-- A list of changes of the table's is one. -/
theorem tableOnly.foldl {α : Type} (f : State → α → State) (h : ∀ s a, tableOnly s (f s a)) (l : List α) (s : State) :
    tableOnly s (l.foldl f s) := by
  induction l generalizing s with
  | nil => exact .refl s
  | cons a l ih => exact (h s a).trans (ih _)

/-- What a state keeps through changes of the table's: its time, its sessions, its ports, its profile and its vote. -/
theorem tableOnly.kept {s t : State} (h : tableOnly s t) :
    t.now = s.now ∧ t.nextTick = s.nextTick ∧ t.resetn = s.resetn ∧ t.pending = s.pending ∧ t.ports = s.ports
      ∧ t.sessions = s.sessions ∧ t.profile = s.profile ∧ t.vote = s.vote := by
  rw [h.1]
  exact ⟨rfl, rfl, rfl, rfl, rfl, rfl, rfl, rfl⟩

/-- A record put in a slot. -/
theorem tableOnly.putRecord (s : State) (i : SlotId) (r : Record) : tableOnly s (s.putRecord i r) :=
  ⟨rfl, fun _ => ⟨rfl, rfl, rfl⟩⟩

/-- An edit of a board. -/
theorem tableOnly.editBoard (s : State) (h : HostId) (f : Board → Board) : tableOnly s (s.editBoard h f) :=
  ⟨rfl, fun _ => ⟨rfl, rfl, rfl⟩⟩

/-- A notice posted. -/
theorem tableOnly.post (s : State) (h : HostId) (t : Byte) (k : NoticeKind) : tableOnly s (s.post h t k) :=
  .editBoard s h _

/-- A change of the cells that does not sample. -/
theorem tableOnly.mapCells (s : State) (f : LineId → Cell → Cell)
    (h : ∀ l c, (f l c).raw = c.raw ∧ (f l c).filtered = c.filtered ∧ (f l c).run = c.run) :
    tableOnly s (s.mapCells f) :=
  ⟨rfl, fun l => by simpa using h l (s.cells.get l)⟩

/-- The report of a settling holder (R73). -/
theorem tableOnly.reportSettling (s : State) (i : SlotId) (r : Record) : tableOnly s (s.reportSettling i r) :=
  .mapCells s _ fun l c => by split <;> exact ⟨rfl, rfl, rfl⟩

/-- The report of a holder entering HELD (R73). -/
theorem tableOnly.reportHeld (s : State) (i : SlotId) (r : Record) : tableOnly s (s.reportHeld i r) :=
  .mapCells s _ fun l c => by split <;> exact ⟨rfl, rfl, rfl⟩

/-- The report of a holder passing between HELD and YIELDING (R73). -/
theorem tableOnly.reportPass (s : State) (r : Record) (st : RecState) : tableOnly s (s.reportPass r st) :=
  .mapCells s _ fun l c => by split <;> exact ⟨rfl, rfl, rfl⟩

/-- The report of a holder gone (R73). -/
theorem tableOnly.reportFree (s : State) (r : Record) : tableOnly s (s.reportFree r) :=
  .mapCells s _ fun l c => by split <;> exact ⟨rfl, rfl, rfl⟩

/-- A grant into a slot (R35, R43, R44). -/
theorem tableOnly.grantInto (s : State) (i : SlotId) (r : Record) : tableOnly s (s.grantInto i r) := by
  unfold State.grantInto
  split
  · exact (tableOnly.putRecord s i _).trans (.reportHeld _ i _)
  · exact (tableOnly.putRecord s i _).trans (.reportSettling _ i _)

/-- A grant puts the record in its slot: SETTLING with its settle end, or HELD where the settle time is 0 (R35, R43, R44). -/
theorem State.grantInto_slots (s : State) (i : SlotId) (r : Record) :
    (s.grantInto i r).slots = s.slots.set i (some (r.granted s.now s.profile.settle)) := by
  unfold State.grantInto Record.granted
  split <;> rfl

/-- A grant posts no notice (R35). -/
@[simp] theorem State.grantInto_boards (s : State) (i : SlotId) (r : Record) : (s.grantInto i r).boards = s.boards := by
  unfold State.grantInto
  split <;> simp [State.reportHeld]

/-- A grant of a walk (R35). -/
theorem tableOnly.grant (s : State) (i : SlotId) (r : Record) : tableOnly s (s.grant i r) := by
  unfold State.grant
  split
  · exact (tableOnly.grantInto s i r).trans (.post _ _ _ _)
  · exact .grantInto s i r

/-- An entry to YIELDING (R53). -/
theorem tableOnly.enterYielding (s : State) (i : SlotId) (r : Record) : tableOnly s (s.enterYielding i r) :=
  ((tableOnly.putRecord s i _).trans (.reportPass _ r _)).trans (.post _ _ _ _)

/-- A return to HELD (R56). -/
theorem tableOnly.returnHeld (s : State) (i : SlotId) (r : Record) : tableOnly s (s.returnHeld i r) :=
  ((tableOnly.putRecord s i _).trans (.reportPass _ r _)).trans (.post _ _ _ _)

/-- An entry to HELD at a settle end (R45). -/
theorem tableOnly.enterHeld (s : State) (i : SlotId) (r : Record) : tableOnly s (s.enterHeld i r) :=
  (tableOnly.putRecord s i _).trans (.reportHeld _ i _)

/-- A step of the walk grants the WAITING record of its slot, or changes nothing (R34). -/
theorem State.tryGrant_cases (s : State) (i : SlotId) :
    s.tryGrant i = s
      ∨ ∃ r, s.slots.get i = some r ∧ r.state = .waiting ∧ grantable s.slots i r = true ∧ s.tryGrant i = s.grant i r := by
  unfold State.tryGrant
  split
  · rename_i r hr
    split
    · rename_i h; exact .inr ⟨r, hr, h.1, h.2, rfl⟩
    · exact .inl rfl
  · exact .inl rfl

/-- A test of eligibility evaluation makes the record of its slot yield, returns it to HELD, or changes nothing (R51). -/
theorem State.applyDemand_cases (s : State) (i : SlotId) :
    s.applyDemand i = s
      ∨ ∃ r, s.slots.get i = some r
          ∧ ((r.state = .held ∧ demanded s.slots s.eligible r = true ∧ s.applyDemand i = s.enterYielding i r)
            ∨ (r.state = .yielding ∧ demanded s.slots s.eligible r = false ∧ s.applyDemand i = s.returnHeld i r)) := by
  unfold State.applyDemand
  split
  · rename_i r hr
    split
    · rename_i h; exact .inr ⟨r, hr, .inl ⟨h.1, h.2, rfl⟩⟩
    · split
      · rename_i h; exact .inr ⟨r, hr, .inr ⟨h.1, h.2, rfl⟩⟩
      · exact .inl rfl
  · exact .inl rfl

/-- A step of the walk. -/
theorem tableOnly.tryGrant (s : State) (i : SlotId) : tableOnly s (s.tryGrant i) := by
  rcases s.tryGrant_cases i with h | ⟨r, _, _, _, h⟩ <;> rw [h]
  · exact .refl s
  · exact .grant s i r

/-- A test of eligibility evaluation. -/
theorem tableOnly.applyDemand (s : State) (i : SlotId) : tableOnly s (s.applyDemand i) := by
  rcases s.applyDemand_cases i with h | ⟨r, _, ⟨_, _, h⟩ | ⟨_, _, h⟩⟩ <;> rw [h]
  · exact .refl s
  · exact .enterYielding s i r
  · exact .returnHeld s i r

/-- A grant evaluation (R34). -/
theorem tableOnly.grantWalk (s : State) : tableOnly s s.grantWalk :=
  .foldl _ tableOnly.tryGrant _ s

/-- An eligibility evaluation (R51). -/
theorem tableOnly.eligibility (s : State) : tableOnly s s.eligibility :=
  (show tableOnly s { s with eligible := eligibleSet s.slots } from ⟨rfl, fun _ => ⟨rfl, rfl, rfl⟩⟩).trans
    (.foldl _ tableOnly.applyDemand _ _)

/-- Both evaluations (R37). -/
theorem tableOnly.evaluate (s : State) : tableOnly s s.evaluate :=
  (tableOnly.grantWalk s).trans (.eligibility _)

/-! ## Freeing -/

/-- A freeing of a slot (R7). -/
theorem tableOnly.free (s : State) (i : SlotId) (cause : FreeCause) : tableOnly s (s.free i cause) := by
  unfold State.free
  split
  · exact .refl s
  · rename_i r hr
    refine tableOnly.trans ?_ (show tableOnly _ _ from ⟨rfl, fun _ => ⟨rfl, rfl, rfl⟩⟩)
    split
    · exact (tableOnly.reportFree s r).trans (.editBoard _ _ _)
    · exact .editBoard _ _ _

/-- A freeing of a list of slots, and the evaluations after it (R7). -/
theorem tableOnly.freeAll (s : State) (l : List SlotId) (cause : FreeCause) : tableOnly s (s.freeAll l cause) :=
  (tableOnly.foldl _ (fun t i => tableOnly.free t i cause) l s).trans (.evaluate _)

/-- A freeing of every record of a host (R9). -/
theorem tableOnly.freeHost (s : State) (h : HostId) : tableOnly s (s.freeHost h) :=
  .freeAll s _ _

/-- A freeing empties its slot and no other. -/
@[simp] theorem State.free_slots (s : State) (i j : SlotId) (cause : FreeCause) :
    (s.free i cause).slots.get j = if j = i then none else s.slots.get j := by
  unfold State.free
  cases h : s.slots.get i with
  | none =>
    by_cases hj : j = i
    · subst hj; simp [h]
    · simp [hj]
  | some r =>
    simp only [Table.get_set]
    by_cases hj : j = i
    · simp [hj]
    · simp only [hj, if_false]
      split <;> simp

/-- A list of freeings empties its slots and no other. -/
theorem State.freeEach_slots (s : State) (l : List SlotId) (cause : FreeCause) (j : SlotId) :
    (s.freeEach l cause).slots.get j = if j ∈ l then none else s.slots.get j := by
  unfold State.freeEach
  induction l generalizing s with
  | nil => simp
  | cons i l ih =>
    rw [List.foldl_cons, ih]
    by_cases h1 : j ∈ l <;> by_cases h2 : j = i <;> simp [h1, h2]

end Sys2Proof.Machine
end

