-- ==== Sys2Proof/Laws/Frames.lean ====
section
/-! SUPPORT. Bits and bytes of the links. -/

namespace Sys2Proof

/-- Eight bits of a byte, most significant first, are read as that byte (R150). -/
theorem bytesOf_byte_append (b : Byte) (rest : List Bool) : bytesOf (bitsOfByte b ++ rest) = b :: bytesOf rest := by
  simp only [bitsOfByte, List.cons_append, List.nil_append, bytesOf, List.cons.injEq, and_true]
  apply BitVec.eq_of_getLsbD_eq
  intro i hi
  rw [BitVec.getLsbD_ofFnLE, dif_pos hi]
  match i, hi with
  | 0, _ | 1, _ | 2, _ | 3, _ | 4, _ | 5, _ | 6, _ | 7, _ => rfl

/-- What was shifted out byte by byte is read back, whatever follows. -/
theorem bytesOf_bitsOf_append (bs : List Byte) (rest : List Bool) : bytesOf (bitsOf bs ++ rest) = bs ++ bytesOf rest := by
  induction bs with
  | nil => rfl
  | cons b bs ih =>
    rw [show bitsOf (b :: bs) ++ rest = bitsOfByte b ++ (bitsOf bs ++ rest) by simp [bitsOf], bytesOf_byte_append, ih,
      List.cons_append]

/-- Fewer than eight bits hold no byte. -/
theorem bytesOf_short (bits : List Bool) (h : bits.length < 8) : bytesOf bits = [] := by
  match bits, h with
  | [], _ | [_], _ | [_, _], _ | [_, _, _], _ | [_, _, _, _], _ | [_, _, _, _, _], _ | [_, _, _, _, _, _], _
  | [_, _, _, _, _, _, _], _ => rfl

/-- A list of bytes has eight bits to the byte. -/
@[simp] theorem length_bitsOf (bs : List Byte) : (bitsOf bs).length = 8 * bs.length := by
  induction bs with
  | nil => rfl
  | cons b bs ih =>
    rw [show bitsOf (b :: bs) = bitsOfByte b ++ bitsOf bs by simp [bitsOf], List.length_append, ih]
    simp [bitsOfByte]
    omega

/-- A kind's code names the kind (R161). -/
@[simp] theorem kindOf_code (k : Kind) : kindOf k.code = some k := by cases k <;> rfl

/-- The kind a code names has that code. -/
theorem code_of_kindOf {b : Byte} {k : Kind} (h : kindOf b = some k) : k.code = b := by
  have := List.find?_some h
  simpa using this

/-- A setting's byte gives the setting back (R161). -/
theorem setting_ofByte_byte (st : Setting) : Setting.ofByte st.byte = some st := by
  obtain ⟨m, l, w, f⟩ := st
  cases m <;> cases l <;> cases w <;> revert f <;> decide

/-! ## The encodings are those the statements read from R161 -/

/-- A kind's code is the kind table's. -/
theorem kind_code_eq (k : Kind) : k.code = BitVec.ofNat 8 k.number := by cases k <;> rfl

/-- A status's code is the status table's. -/
theorem status_code_eq (st : Status) : st.code = BitVec.ofNat 8 st.number := by cases st <;> rfl

/-- A setting's byte is the one R161 lays out. -/
theorem setting_byte_eq (st : Setting) : st.byte = BitVec.ofNat 8 st.number := by
  obtain ⟨m, l, w, f⟩ := st
  cases m <;> cases l <;> cases w <;> revert f <;> decide

/-- A 16-bit word goes out as two bytes, high byte first. -/
theorem u16Bytes_eq (w : BitVec 16) : u16Bytes w = twoBytes w.toNat := by
  simp only [u16Bytes, twoBytes, List.cons.injEq, and_true]
  constructor <;> apply BitVec.eq_of_toNat_eq <;> simp [Nat.shiftRight_eq_div_pow]

/-- A line set goes out as R161 lays it out. -/
theorem lineSetBytes_eq (w : LineSet) : lineSetBytes w = sentLines w := by
  simp only [lineSetBytes, sentLines, List.range, List.range.loop, List.map, List.cons.injEq, and_true]
  refine ⟨?_, ?_, ?_, ?_, ?_, ?_⟩ <;> apply BitVec.eq_of_getLsbD_eq <;> intro i hi <;> simp [hi]

end Sys2Proof
end

