-- ==== Sys2Proof/Laws/Votes.lean ====
section
/-! SUPPORT. What the completion test of a reopen vote can do, and what a vote's operations leave. -/

namespace Sys2Proof.Machine

/-- The completion test ends a vote with no member, completes one that has voted whole, or leaves the state as it is (R135). -/
theorem State.completionTest_cases (s : State) :
    (s.vote.running = true ∧ s.vote.required = 0#4 ∧ s.completionTest = s.endVote)
      ∨ (s.vote.running = true ∧ s.vote.required ≠ 0#4 ∧ s.vote.voted = s.vote.required
          ∧ s.completionTest =
            { s.endVote with profile := { s.profile with state := .opened } }.forHosts s.attachedSet fun t h =>
              t.flag h fun f => { f with profileOpened := true })
      ∨ ((s.vote.running = false ∨ (s.vote.required ≠ 0#4 ∧ s.vote.voted ≠ s.vote.required)) ∧ s.completionTest = s) := by
  unfold State.completionTest
  split
  · rename_i hr
    split
    · rename_i h0; exact .inl ⟨hr, h0, rfl⟩
    · rename_i h0
      split
      · rename_i hv; exact .inr (.inl ⟨hr, h0, hv, rfl⟩)
      · rename_i hv; exact .inr (.inr ⟨.inr ⟨h0, hv⟩, rfl⟩)
  · rename_i hr; exact .inr (.inr ⟨.inl (by simpa using hr), rfl⟩)

/-- A board flagged for each host of a set changes the boards alone. -/
theorem State.forHosts_flag_frame (s : State) (w : HostSet) (f : SessionFlags → SessionFlags) :
    s.forHosts w (fun t h => t.flag h f) = { s with boards := (s.forHosts w fun t h => t.flag h f).boards } :=
  State.forHosts_induct (fun t => t = { s with boards := t.boards }) s w _ rfl fun t h _ ht => by
    rw [ht]; rfl

/-- The completion test changes the vote, the vote flags, the profile state and the boards alone. -/
theorem State.completionTest_frame (s : State) :
    s.completionTest =
      { s with
        vote := s.completionTest.vote, sessions := s.completionTest.sessions, boards := s.completionTest.boards
        profile := { s.profile with state := s.completionTest.profile.state } } := by
  rcases s.completionTest_cases with ⟨_, _, h⟩ | ⟨_, _, _, h⟩ | ⟨_, h⟩
  · rw [h]; rfl
  · rw [h, State.forHosts_flag_frame]; rfl
  · rw [h]

end Sys2Proof.Machine
end

