-- ==== Sys2Proof/Tests/Slice0.lean ====
section
/-! SUPPORT. Tests, each with its source in spec/, and the witnesses of the statements: for each statement with hypotheses, a state
and operands that meet them together. States are built by the helpers below, from State.reset. -/

open Sys2Proof Sys2Proof.Machine

set_option synthInstance.maxHeartbeats 400000
set_option synthInstance.maxSize 2000
set_option Elab.async false

namespace Sys2Proof.Tests

/-! ## Well-formed terms -/

/-- A write opener and a read opener are no ignored transaction (R150). -/
theorem test_wellFormed_refuses_openers :
    (Instr.ignoredTransaction 0 0 (writeOpener ++ [true])).wellFormed = false
      ∧ (Instr.ignoredTransaction 0 0 readOpener).wellFormed = false := by decide

/-- A short transaction and one with another opener are ignored transactions (R150). -/
theorem test_wellFormed_admits_others :
    (Instr.ignoredTransaction 0 0 (writeOpener.take 7)).wellFormed = true
      ∧ (Instr.ignoredTransaction 0 0 (List.replicate 8 true)).wellFormed = true := by decide

/-- A payload of 61 bytes is no frame's (R152). -/
theorem test_frame_refuses_61_bytes :
    Frame.wellFormed ⟨0x10#8, 1#16, 0#8, List.replicate 61 0#8, 0#8⟩ = false
      ∧ Frame.wellFormed ⟨0x10#8, 1#16, 0#8, List.replicate 60 0#8, 0#8⟩ = true := by decide

/-! ## States -/

/-- A session ATTACHED under epoch 1 with a period of 500 ms. -/
def attached : Session := ⟨.attached, 1#16, 50, some 500000, false⟩

/-- H0, H1 and H2 are ATTACHED, H3 is LAPSED; H1 has priority 1. -/
def hosts : State :=
  { State.reset with
    sessions := Table.ofFn fun h => if h = 3 then { attached with state := .lapsed, deadline := none } else attached
    profile := { Profile.reset with hosts := Profile.reset.hosts.set 1 { priority := 1, quota := 8 } } }

/-- A setting: PUSH_PULL, watch BOTH, filter length 2. -/
def drives (level : Bool) : Setting := ⟨.pushPull, level, .both, 1⟩

/-- A setting: INPUT, watch NONE, filter length 1. -/
def reads : Setting := ⟨.input, false, .none, 0⟩

/-- H0's record of ticket 1, on L0 (driven high) and L1 (read), in state `st`. -/
def mine (st : RecState) (d : Option Nat) : Record :=
  ⟨st, 0, 1#8, 0, 1, [⟨0, drives true⟩, ⟨1, reads⟩], false, none, d,
    match st with | .waiting | .held => 0 | .settling => 10 | .yielding => 50⟩

/-- H1's record of ticket 2, WAITING for L0 with priority 1. -/
def waiter (preempt : Bool) (limit d : Option Nat) : Record :=
  ⟨.waiting, 1, 2#8, 1, 2, [⟨0, drives false⟩], preempt, limit, d, limit.getD 0⟩

/-- The cell of a line of `mine` in state `st`. -/
def cellOf (st : RecState) (set : Setting) : Cell :=
  { Cell.reset false with
    holder := some ⟨0, 0, 1#8, st⟩
    applied := if st = .settling then none else some set
    presented := if st = .settling then .float else presentedOf set }

/-- `hosts` with `mine` in slot 0. -/
def holding (st : RecState) (d : Option Nat) : State :=
  { hosts with
    slots := hosts.slots.set 0 (some (mine st d))
    cells := (hosts.cells.set 0 (cellOf st (drives true))).set 1 (cellOf st reads) }

/-- H0's record HELD, and H1's WAITING behind it. -/
def queued : State :=
  { holding .held none with slots := (holding .held none).slots.set 1 (some (waiter false (some 5) (some 50000))) }

/-- H0's record YIELDING to H1's preemptor. -/
def yielding : State :=
  { holding .yielding (some 50000) with
    slots := (holding .yielding (some 50000)).slots.set 1 (some (waiter true none none)), eligible := [1] }

/-- H0's record HELD with L0 parked. -/
def parked : State :=
  { holding .held none with
    cells := (holding .held none).cells.set 0 { cellOf .held (drives true) with parked := true, presented := .float } }

/-- H1's WAITING record alone, held back by no record. -/
def alone : State := { hosts with slots := hosts.slots.set 1 (some (waiter false none none)) }

/-- The profile is COMMITTED; a vote runs with H0's vote, where `running`. -/
def committed (running : Bool) : State :=
  { hosts with
    profile := { hosts.profile with state := .committed }
    sessions := Table.ofFn fun h => { hosts.sessions.get h with voted := running && h == 0 }
    vote := if running then ⟨true, some 2000000, 0x7#4, 0x1#4⟩ else Vote.reset }

/-- Port `n` PENDING with a request in hand. -/
def asks (s : State) (n : HostId) (k : Kind) (p : List Byte) (e : BitVec 16 := 1#16) : State :=
  { s with ports := s.ports.set n { Port.reset with link := .pending, request := some ⟨k, e, 9#8, p, 0#8, some .attached⟩ } }

/-- The request of `asks`. -/
def ask (k : Kind) (p : List Byte) (e : BitVec 16 := 1#16) : Request := ⟨k, e, 9#8, p, 0#8, some .attached⟩

/-- The state after one command. -/
def after (s : State) (c : Instr) : State :=
  match exec c s with
  | .next t => t
  | _ => s

/-- The response posted to port `n`: status and payload. -/
def answerOf (s : State) (n : HostId) : Option (Status × List Byte) :=
  (s.ports.get n).response.map fun r => (r.status, r.payload)

/-- A request frame with its CRC byte. -/
def frameOf (k : Byte) (e : BitVec 16) (p : List Byte) : Frame := Frame.sealed ⟨k, e, 7#8, p, 0#8⟩

/-! ## The links -/

/-- The STATUS request of R154 is written and accepted: its CRC byte is 0x77. -/
theorem test_status_frame_of_R154 :
    frameOfBits (bitsOf [0x01#8, 0x00#8, 0x00#8, 0x01#8, 0x00#8, 0x77#8]) = .good ⟨0x01#8, 0#16, 1#8, [], 0x77#8⟩ := by
  decide +kernel

/-- The same frame leaves the port PENDING with STATUS in hand (R156). -/
theorem test_request_frame :
    ((after hosts (.requestFrame 5 0 false (bitsOf [0x01#8, 0x00#8, 0x00#8, 0x01#8, 0x00#8, 0x77#8]))).ports.get 0).link = .pending := by
  decide +kernel

/-- A wrong CRC byte is answered FRAME_ERROR with reason 3 (R153). -/
theorem test_request_frame_bad_crc :
    answerOf (after hosts (.requestFrame 5 0 false (bitsOf [0x01#8, 0x00#8, 0x00#8, 0x01#8, 0x00#8, 0x76#8]))) 0
      = some (.frameError, [3#8]) := by
  decide +kernel

/-- A read in PENDING shifts PENDING and 0 in the other bits (R157). -/
theorem test_read_transaction :
    ((after (asks hosts 0 .status []) (.readTransaction 0 0 false 8)).ports.get 0).sdo
      = [true, true, true, true, true, true, true, true, false, false, false, false, false, false, true, false] := by
  decide +kernel

/-- An ignored transaction shifts 1s (R150). -/
theorem test_ignored_transaction :
    ((after hosts (.ignoredTransaction 0 0 [false, false, true])).ports.get 0).sdo = [true, true, true] := by decide +kernel

/-- The opener decides: bits opened by 0x3C are a write, dropped in PENDING, whatever row they come in (R150, R151). -/
theorem test_opener_decides :
    ((after (asks hosts 0 .status []) (.ignoredTransaction 0 0 (bitsOf [0x3C#8, 0x01#8]))).ports.get 0).dropped = true
      ∧ ((after (asks hosts 0 .status []) (.ignoredTransaction 0 0 (bitsOf [0x3D#8, 0x01#8]))).ports.get 0).dropped = false := by
  decide +kernel

/-- A hardware reset floats the lines (R74). -/
theorem test_hardware_reset : ((after (holding .held none) (.hardwareReset 0)).cells.get 0).presented = .float := by
  decide +kernel

/-- The rise of RESETn takes the first sample (R69). -/
theorem test_resetn_rise :
    ((after { State.reset with resetn := false } (.resetnRise 4 0x2#48)).cells.get 1).filtered = true := by decide +kernel

/-! ## The Session Unit -/

/-- ATTACH of a DETACHED host begins epoch 1 (R91, R95). -/
theorem test_attach : answerOf (after (asks State.reset 0 .attach [0#8, 50#8] 0#16) (.attach 0 0)) 0
    = some (.ok, [0#8, 1#8, 0#8, 50#8, 0#8]) := by decide +kernel

/-- STATUS of H0 with one record, a period of 50 and no time passed since its refresh: 49 units are left (R146, log 23), and 31
slots are FREE (R103). -/
theorem test_status : answerOf (after (asks (holding .held none) 0 .status []) (.status 0 0)) 0
    = some (.ok, [0#8, 1#8, 0#8, 1#8, 0#8, 50#8, 0#8, 49#8, 1#8, 0#8, 31#8, 0#8]) := by decide +kernel

/-- DETACH frees the host's record and keeps its epoch (R100). -/
theorem test_detach :
    (after (asks (holding .held none) 0 .detach []) (.detach 0 0)).slots.get 0 = none
      ∧ answerOf (after (asks (holding .held none) 0 .detach []) (.detach 0 0)) 0 = some (.ok, [0#8, 1#8]) := by
  decide +kernel

/-- HEARTBEAT with a period of 1000 moves the deadline 10 s ahead (R98). -/
theorem test_heartbeat :
    ((after (asks hosts 0 .heartbeat [3#8, 0xE8#8]) (.heartbeat 7 0)).sessions.get 0).deadline = some 10000007 := by
  decide +kernel

/-- A heartbeat expiry lapses the session (R99). -/
theorem test_heartbeat_expiry :
    ((after (holding .held none) (.heartbeatExpiry 0)).sessions.get 0).state = .lapsed
      ∧ (after (holding .held none) (.heartbeatExpiry 0)).slots.get 0 = none := by decide +kernel

/-! ## The Claim Table Controller -/

/-- A claim of a free line is granted into SETTLING (R21, R43). -/
theorem test_claim_granted : answerOf (after (asks hosts 0 .claim [4#8, 0#8, 1#8, 5#8, 0x04#8]) (.claim 0)) 0
    = some (.ok, [4#8, 2#8]) := by decide +kernel

/-- A claim of a held line is queued behind the one that waits (R22). -/
theorem test_claim_queued : answerOf (after (asks queued 2 .claim [4#8, 0#8, 1#8, 0#8, 0x04#8]) (.claim 0)) 2
    = some (.queued, [4#8, 2#8]) := by decide +kernel

/-- RELEASE of a HELD record grants the one that waits (R23, R34). -/
theorem test_release :
    ((after (asks queued 0 .release [1#8]) (.release 0)).slots.get 1).map (fun r => r.state) = some .settling
      ∧ answerOf (after (asks queued 0 .release [1#8]) (.release 0)) 0 = some (.ok, [1#8, 3#8]) := by decide +kernel

/-- QUERY CLAIM of the WAITING record: position 1, limit 5, 3 units of 10 ms left after 15 ms (R25, R26). -/
theorem test_query_claim : answerOf (after (asks queued 1 .queryClaim [2#8]) (.queryClaim 15000)) 1
    = some (.ok, [2#8, 1#8, 1#8, 0x0C#8, 1#8, 0#8, 5#8, 0#8, 3#8, 1#8, 0#8, 0x74#8, 0#8]) := by decide +kernel

/-- A settle end brings HELD and GRANTED (R45). -/
theorem test_settle_end :
    (after (holding .settling (some 100)) (.settleEnd 0)).noticeOf 0 1#8 = some .granted
      ∧ ((after (holding .settling (some 100)) (.settleEnd 0)).cells.get 0).presented = .driveHigh := by decide +kernel

/-- A yield end frees the record with REVOKED, and the preemptor is granted (R58). -/
theorem test_yield_end :
    (after yielding (.yieldEnd 0)).noticeOf 0 1#8 = some .revoked
      ∧ ((after yielding (.yieldEnd 0)).slots.get 1).map (fun r => r.state) = some .settling := by decide +kernel

/-- A wait end frees the record with WAIT_EXPIRED (R41). -/
theorem test_wait_end : (after queued (.waitEnd 1)).noticeOf 1 2#8 = some .waitExpired := by decide +kernel

/-! ## The Line Cell Array -/

/-- SET LEVELS drives the line low at once (R84). -/
theorem test_set_levels :
    ((after (asks (holding .held none) 0 .setLevels [1#8, 1#8, 0#8]) (.setLevels 0)).cells.get 0).presented = .driveLow := by
  decide +kernel

/-- RECONFIGURE to OPEN_DRAIN, level 1, leaves the line undriven (R71, R85). -/
theorem test_reconfigure :
    ((after (asks (holding .held none) 0 .reconfigure [1#8, 1#8, 0#8, 0x0B#8]) (.reconfigure 0)).cells.get 0).presented
      = .float := by decide +kernel

/-- CLEAR FAULT unparks the line and names its position (R86). -/
theorem test_clear_fault :
    answerOf (after (asks parked 0 .clearFault [1#8]) (.clearFault 0)) 0 = some (.ok, [1#8, 1#8]) := by decide +kernel

/-- READ LINES: no level high, every line permitted, L0 and L1 held (R87). -/
theorem test_read_lines : answerOf (after (asks (holding .held none) 0 .readLines []) (.readLines 0)) 0
    = some (.ok, [0#8, 0#8, 0#8, 0#8, 0#8, 0#8, 0xFF#8, 0xFF#8, 0xFF#8, 0xFF#8, 0xFF#8, 0xFF#8,
        3#8, 0#8, 0#8, 0#8, 0#8, 0#8]) := by decide +kernel

/-- QUERY LINE by another host: the holder's host and no ticket (R88). -/
theorem test_query_line : answerOf (after (asks queued 2 .queryLine [0#8]) (.queryLine 0)) 2
    = some (.ok, [0#8, 2#8, 0#8, 0#8, 1#8, 0#8]) := by decide +kernel

/-- A drive that reads back wrong for two samples parks the line: the first sample only counts (R75, R80). -/
theorem test_sampling_tick :
    ((after { holding .held none with
        cells := (holding .held none).cells.set 0 { cellOf .held (drives true) with filtered := true, run := 1 } }
      (.samplingTick 0#48)).cells.get 0).parked = true := by decide +kernel

/-- Blanking ends (R142). -/
theorem test_blanking_end :
    ((after { hosts with cells := hosts.cells.set 0 { Cell.reset false with blanking := some 16 } } (.blankingEnd 0)).cells.get 0).blanking
      = none := by decide +kernel

/-! ## The Notice Board -/

/-- A fetch returns a notice and leaves the board empty (R116, R117). -/
theorem test_fetch_notices :
    answerOf (after (asks (hosts.post 0 5#8 .granted) 0 .fetchNotices []) (.fetchNotices 0 0)) 0
      = some (.ok, [0#8] ++ List.replicate 18 0#8 ++ [1#8, 5#8, 1#8]) := by decide +kernel

/-! ## The Profile Unit -/

/-- READ PROFILE, section 2, of the defaults with H1 at priority 1 (R121, R131). -/
theorem test_read_profile : answerOf (after (asks hosts 0 .readProfile [2#8]) (.readProfile 0)) 0
    = some (.ok, [0#8, 0#8, 0#8, 1#8, 0#8, 0#8, 0#8, 8#8, 1#8, 8#8, 0#8, 8#8, 0#8, 8#8, 10#8, 0#8, 50#8, 20#8]) := by
  decide +kernel

/-- SET LINE PROFILE that takes H1 out of L0 denies its WAITING record (R126). -/
theorem test_set_line_profile :
    (after (asks queued 0 .setLineProfile [1#8, 0#8, 0x0D#8]) (.setLineProfile 0)).noticeOf 1 2#8 = some .denied := by
  decide +kernel

/-- SET BOND of a group in use is refused (R128). -/
theorem test_set_bond : answerOf (after (asks queued 0 .setBond [0#8, 1#8]) (.setBond 0)) 0 = some (.groupBusy, []) := by
  decide +kernel

/-- SET HOST PROFILE cannot take out the only admin (R129). -/
theorem test_set_host_profile :
    answerOf (after (asks hosts 0 .setHostProfile [0#8, 0#8, 8#8, 0#8]) (.setHostProfile 0)) 0 = some (.badArgument, []) := by
  decide +kernel

/-- SET TIMING stores the yield window from two bytes, high byte first (R147). -/
theorem test_set_timing :
    (after (asks hosts 0 .setTiming [5#8, 1#8, 2#8, 9#8]) (.setTiming 0)).profile.yieldWindow = 258 := by decide +kernel

/-- COMMIT PROFILE (R132). -/
theorem test_commit_profile :
    (after (asks hosts 0 .commitProfile []) (.commitProfile 0)).profile.state = .committed := by decide +kernel

/-- REOPEN VOTE starts a vote of the three attached hosts (R134). -/
theorem test_reopen_vote : answerOf (after (asks (committed false) 0 .reopenVote []) (.reopenVote 0)) 0
    = some (.ok, [3#8, 0x17#8]) := by decide +kernel

/-- A vote window of 100, and READ PROFILE taken with no time passed since the vote started: 99 units are left (R131, R146). -/
theorem test_vote_left :
    voteLeft { committed true with
      profile := { (committed true).profile with voteWindow := 100 }, vote := ⟨true, some 10000000, 0x7#4, 0x1#4⟩ } = 99 := by
  decide +kernel

/-- A vote deadline flags the hosts that voted (R136). -/
theorem test_vote_deadline :
    ((after (committed true) .voteDeadline).boards.get 0).flags.voteFailed = true
      ∧ ((after (committed true) .voteDeadline).boards.get 1).flags.voteFailed = false := by decide +kernel

/-- CLEAR ALL frees two records and lapses H1 and H2 (R137). -/
theorem test_clear_all : answerOf (after (asks queued 0 .clearAll []) (.clearAll 0)) 0 = some (.ok, [2#8, 6#8]) := by
  decide +kernel

/-! ## Witnesses

Each theorem shows, for the statement it names, states and operands that meet all its hypotheses together, clause by clause. -/

/-- A check, record by record, that a state's YIELDING records face a preemptor and its HELD ones none. -/
def yieldCheck (s : State) : Bool :=
  (List.finRange 32).all fun i => (s.slots.get i).all fun r =>
    (r.state != .yielding || decide (s.facesPreemptor r)) && (r.state != .held || !decide (s.facesPreemptor r))

/-- A state that passes the check, and whose kept set is that of its preemptors, yields as R50 and R52 say. -/
theorem yieldsRight_of_check {s : State} (he : ∀ i, i ∈ s.eligible ↔ ∃ r ∈ s.slots.get i, s.isPreemptor i r)
    (h : yieldCheck s = true) : s.yieldsRight := by
  refine ⟨he, fun i r hr => ?_⟩
  have := List.all_eq_true.mp h i (List.mem_finRange i)
  rw [Option.mem_def.mp hr] at this
  simp only [Option.all_some, Bool.and_eq_true, Bool.or_eq_true, bne_iff_ne, ne_eq, decide_eq_true_eq, Bool.not_eq_true',
    decide_eq_false_iff_not] at this
  exact ⟨fun e => this.1.resolve_left fun n => n e, fun e => this.2.resolve_left fun n => n e⟩

/-- No port of a state whose links are IDLE has a request in hand. -/
theorem reset_waits_for_none (n : HostId) (q : Request) : ¬ State.reset.waits n q := by
  have h : ∀ n : HostId, (State.reset.ports.get n).link = .idle := by decide +kernel
  intro w
  simp [State.waits, h n] at w

/-- Commands whose events the part cannot meet: a rise of RESETn where it is high, a tick where it is low, a request no port has in hand,
and each deadline where none is held, a HELD record's and a DETACHED session's among them. -/
theorem witness_EveryCommandAnswersNext :
    State.reset.cannotMeet (.resetnRise 5 0#48) ∧ (after State.reset (.hardwareReset 0)).cannotMeet (.samplingTick 0#48)
      ∧ State.reset.cannotMeet (.claim 5) ∧ State.reset.cannotMeet (.heartbeat 5 3)
      ∧ queued.cannotMeet (.settleEnd 0) ∧ queued.cannotMeet (.yieldEnd 31) ∧ queued.cannotMeet (.waitEnd 0)
      ∧ State.reset.cannotMeet (.heartbeatExpiry 0) ∧ queued.cannotMeet .voteDeadline ∧ queued.cannotMeet (.blankingEnd 47) := by
  simp only [State.cannotMeet]
  refine ⟨?_, ?_, fun n q h => reset_waits_for_none n q h.2.1, fun q h => reset_waits_for_none 3 q h.2.1, ?_, ?_, ?_, ?_, ?_, ?_⟩ <;>
    decide +kernel

/-- RESETn is low in a state that its rise can meet. -/
theorem witness_ResetPinTakesEveryDefault : (after State.reset (.hardwareReset 3)).resetn = false := by decide +kernel

/-- A frame given the CRC byte its other fields call for is as a host writes it. -/
theorem sealed_proper (f : Frame) (h : f.payload.length ≤ 60) : f.sealed.proper := by
  simpa only [Frame.proper, Frame.sealed, Frame.covered, and_true] using h

/-- Frames with the shortest and the longest payload. -/
theorem witness_RequestFramesReadAsWritten :
    (frameOf 0x01#8 0#16 []).proper ∧ (frameOf 0x10#8 1#16 (List.replicate 60 0xFF#8)).proper :=
  ⟨sealed_proper _ (by decide), sealed_proper _ (by decide)⟩

/-- Each of the five failures of R153: a cut byte, five bytes, a length of 61, a byte too many, a wrong CRC. -/
theorem witness_MalformedFrameAnswered :
    hosts.resetn = true ∧ (hosts.ports.get 0).link = .idle
      ∧ frameFault (encodeFrame (frameOf 0x01#8 0#16 [])) [true] = some 1#8
      ∧ frameFault [1#8, 0#8, 0#8, 1#8, 0#8] [] = some 1#8
      ∧ frameFault [1#8, 0#8, 0#8, 1#8, 61#8, 0#8] [] = some 2#8
      ∧ frameFault (encodeFrame (frameOf 0x01#8 0#16 []) ++ [0#8]) [] = some 1#8
      ∧ frameFault [1#8, 0#8, 0#8, 1#8, 0#8, 0x76#8] [] = some 3#8 := by
  and_intros <;> decide +kernel

/-- A port in PENDING, and one in ANSWERED; and a command that runs. -/
theorem witness_WriteDroppedWhileBusy :
    ((asks hosts 0 .status []).resetn = true ∧ ((asks hosts 0 .status []).ports.get 0).link = .pending)
      ∧ ((after (asks hosts 0 .status []) (.status 0 0)).resetn = true
        ∧ ((after (asks hosts 0 .status []) (.status 0 0)).ports.get 0).link = .answered)
      ∧ ∃ u, exec (.status 0 0) (asks hosts 0 .status []) = .next u := by
  refine ⟨?_, ?_, ⟨_, rfl⟩⟩ <;> and_intros <;> decide +kernel

/-- A Session Unit kind in DETACHED, another block's kind in ATTACHED, and FETCH NOTICES in LAPSED. -/
theorem witness_FrameHandedOn :
    (∃ (s : State) (f : Frame) (k : Kind), s.resetn = true ∧ (s.ports.get 0).link = .idle ∧ f.proper ∧ f.kind = BitVec.ofNat 8 k.number
        ∧ ¬ (s.ports.get 0).repeats f ∧ (s.sessions.get 0).admits k f.epoch ∧ k.owner = .sessionUnit)
      ∧ ∃ (s : State) (f : Frame) (k : Kind) (n : HostId), s.resetn = true ∧ (s.ports.get n).link = .idle ∧ f.proper
      ∧ f.kind = BitVec.ofNat 8 k.number
        ∧ ¬ (s.ports.get n).repeats f ∧ (s.sessions.get n).admits k f.epoch ∧ k.owner = .noticeBoard ∧ n = (3 : HostId) :=
  ⟨⟨State.reset, frameOf 0x02#8 0#16 [0#8, 1#8], .attach, by (and_intros <;> decide +kernel)⟩,
    ⟨hosts, frameOf 0x30#8 1#16 [], .fetchNotices, 3, by (and_intros <;> decide +kernel)⟩⟩

/-- An unlisted kind; a kind refused in DETACHED and in LAPSED; a wrong epoch. -/
theorem witness_FrameRefused :
    hosts.resetn = true ∧ (hosts.ports.get 0).link = .idle ∧ (hosts.ports.get 3).link = .idle
      ∧ (frameOf 0x05#8 1#16 []).proper ∧ ¬ (hosts.ports.get 0).repeats (frameOf 0x05#8 1#16 [])
      ∧ (∀ k : Kind, (frameOf 0x05#8 1#16 []).kind ≠ BitVec.ofNat 8 k.number)
      ∧ ¬ (State.reset.sessions.get 0).state.allows .heartbeat ∧ (State.reset.sessions.get 0).state = .detached
      ∧ ¬ (hosts.sessions.get 3).state.allows .heartbeat ∧ (hosts.sessions.get 3).state = .lapsed
      ∧ (hosts.sessions.get 0).state.allows .heartbeat ∧ ¬ (hosts.sessions.get 0).admits .heartbeat 2#16 := by
  and_intros
  case refine_2.refine_2.refine_2.refine_2.refine_2.refine_1 => intro k; cases k <;> decide
  all_goals decide +kernel

/-- A frame that repeats the request answered before it, and one that differs in its sequence. -/
theorem witness_RepeatedRequestReplayed :
    ∃ (s : State) (f g : Frame), s.resetn = true ∧ (s.ports.get 0).link = .idle ∧ f.proper ∧ (s.ports.get 0).repeats f
      ∧ g.proper ∧ ¬ (s.ports.get 0).repeats g :=
  ⟨{ hosts with
      ports := hosts.ports.set 0
        { Port.reset with
          saved := some ⟨.ok, 7#8, []⟩, signature := some ⟨0x04#8, 1#16, 7#8, (frameOf 0x04#8 1#16 []).crc⟩ } },
    frameOf 0x04#8 1#16 [], Frame.sealed ⟨0x04#8, 1#16, 8#8, [], 0#8⟩, by
  and_intros <;> decide +kernel⟩

/-- A read that meets RESETn high. -/
theorem witness_ReadShiftsStatusAndResponse : hosts.resetn = true := by decide +kernel

/-- An unknown opener; a write that meets RESETn low; a read whose CSn fell before RESETn rose. -/
theorem witness_IgnoredTransactionsChangeNothing :
    ((List.replicate 8 true).take 8 ≠ bitsOf [0x3C#8] ∧ (List.replicate 8 true).take 8 ≠ bitsOf [0xC3#8])
      ∧ (after hosts (.hardwareReset 0)).resetn = false := by
  and_intros <;> decide +kernel

/-- The CTC chooses between LP0 and LP2, LP3 served last and then LP1; a request of each block is offered. -/
theorem witness_ArbitersAreCyclic :
    (asks (asks hosts 0 .claim []) 2 .release []).chosen .claimTable = some 0
      ∧ ((asks (asks hosts 0 .claim []) 2 .release []).serve .claimTable 1).chosen .claimTable = some 2
      ∧ ∀ k ∈ [Kind.claim, .readLines, .clearAll], (asks hosts 2 k []).offers k 2 (ask k []) := by
  and_intros <;> decide +kernel

/-- A CLAIM under an earlier epoch, after a lapse, and after a DETACH; a FETCH NOTICES under an earlier epoch in LAPSED; a HEARTBEAT in hand
when its session has lapsed, when its epoch is no longer the session's, and a DETACH in DETACHED. -/
theorem witness_OvertakenRequestsRefused :
    ((asks hosts 0 .claim [] 0#16).offers .claim 0 (ask .claim [] 0#16)
        ∧ ((asks hosts 0 .claim [] 0#16).sessions.get 0).state = .attached
        ∧ (0#16) ≠ ((asks hosts 0 .claim [] 0#16).sessions.get 0).epoch)
      ∧ ((asks hosts 3 .claim []).offers .claim 3 (ask .claim []) ∧ ((asks hosts 3 .claim []).sessions.get 3).state = .lapsed)
      ∧ ((asks hosts 3 .fetchNotices [] 0#16).resetn = true
        ∧ (asks hosts 3 .fetchNotices [] 0#16).waits 3 (ask .fetchNotices [] 0#16)
        ∧ ((asks hosts 3 .fetchNotices [] 0#16).sessions.get 3).state = .lapsed
        ∧ (0#16) ≠ ((asks hosts 3 .fetchNotices [] 0#16).sessions.get 3).epoch)
      ∧ ((asks State.reset 0 .claim []).offers .claim 0 (ask .claim [])
        ∧ ((asks State.reset 0 .claim []).sessions.get 0).state = .detached)
      ∧ ((asks hosts 3 .heartbeat []).waits 3 (ask .heartbeat []) ∧ (asks hosts 3 .heartbeat []).resetn = true
        ∧ ¬ ((asks hosts 3 .heartbeat []).sessions.get 3).state.allows .heartbeat)
      ∧ ((asks hosts 0 .heartbeat [] 0#16).waits 0 (ask .heartbeat [] 0#16)
        ∧ ((asks hosts 0 .heartbeat [] 0#16).sessions.get 0).state.allows .heartbeat
        ∧ ¬ ((asks hosts 0 .heartbeat [] 0#16).sessions.get 0).admits .heartbeat 0#16)
      ∧ (asks State.reset 0 .detach []).waits 0 (ask .detach [])
      ∧ ¬ ((asks State.reset 0 .detach []).sessions.get 0).state.allows .detach := by
  and_intros <;> decide +kernel

/-- A STATUS in hand. -/
theorem witness_StatusReports :
    (asks hosts 0 .status []).resetn = true ∧ (asks hosts 0 .status []).waits 0 (ask .status []) := by
  and_intros <;> decide +kernel

/-- An ATTACH in DETACHED with the least period, and one in LAPSED with the greatest. -/
theorem witness_AttachBeginsASession :
    (asks State.reset 0 .attach (twoBytes 1)).waits 0 (ask .attach (twoBytes 1))
      ∧ ((asks State.reset 0 .attach (twoBytes 1)).sessions.get 0).state ≠ .attached
      ∧ (asks hosts 3 .attach (twoBytes 1000)).waits 3 (ask .attach (twoBytes 1000))
      ∧ ((asks hosts 3 .attach (twoBytes 1000)).sessions.get 3).state ≠ .attached
      ∧ (asks hosts 3 .attach (twoBytes 1000)).resetn = true := by
  and_intros <;> decide +kernel

/-- An ATTACH while ATTACHED, with records and with a vote running. -/
theorem witness_AttachRestartsASession :
    (asks yielding 0 .attach (twoBytes 1000)).waits 0 (ask .attach (twoBytes 1000))
      ∧ ((asks yielding 0 .attach (twoBytes 1000)).sessions.get 0).state = .attached
      ∧ (asks yielding 0 .attach (twoBytes 1000)).resetn = true
      ∧ (asks yielding 0 .attach (twoBytes 1000)).vote.running = false
      ∧ (asks (committed true) 0 .attach (twoBytes 1)).waits 0 (ask .attach (twoBytes 1))
      ∧ ((asks (committed true) 0 .attach (twoBytes 1)).sessions.get 0).state = .attached
      ∧ (asks (committed true) 0 .attach (twoBytes 1)).vote.running = true
      ∧ has (asks (committed true) 0 .attach (twoBytes 1)).vote.required 0 = true := by
  and_intros <;> decide +kernel

/-- A DETACH in ATTACHED with a record, and one in LAPSED. -/
theorem witness_DetachEndsASession :
    (asks queued 0 .detach []).waits 0 (ask .detach []) ∧ ((asks queued 0 .detach []).sessions.get 0).state = .attached
      ∧ (1#16) = ((asks queued 0 .detach []).sessions.get 0).epoch ∧ (asks queued 0 .detach []).resetn = true
      ∧ (asks queued 0 .detach []).vote.running = false
      ∧ (asks hosts 3 .detach []).waits 3 (ask .detach []) ∧ ((asks hosts 3 .detach []).sessions.get 3).state = .lapsed
      ∧ (1#16) = ((asks hosts 3 .detach []).sessions.get 3).epoch := by
  and_intros <;> decide +kernel

/-- A HEARTBEAT with no period, and with the greatest. -/
theorem witness_HeartbeatMovesTheDeadline :
    ∀ p ∈ [[], twoBytes 1000],
      (asks hosts 0 .heartbeat p).resetn = true ∧ (asks hosts 0 .heartbeat p).waits 0 (ask .heartbeat p)
        ∧ (asks hosts 0 .heartbeat p).current 0 1#16 := by
  decide +kernel

/-- Periods of 0 and of 1001, one byte, and payloads of kinds that take none. -/
theorem witness_SessionRequestsRefuseBadPayloads :
    (∀ x ∈ [(Kind.attach, twoBytes 0), (.heartbeat, twoBytes 1001), (.heartbeat, [1#8]), (.status, [0#8]), (.detach, [0#8])],
        (asks hosts 0 x.1 x.2).resetn = true ∧ (asks hosts 0 x.1 x.2).waits 0 (ask x.1 x.2)
          ∧ ((asks hosts 0 x.1 x.2).sessions.get 0).admits x.1 1#16)
      ∧ periodMalformed (twoBytes 0) ∧ periodMalformed (twoBytes 1001) ∧ periodMalformed [1#8] := by
  and_intros <;> decide +kernel

/-- A heartbeat deadline of an ATTACHED host with a record others wait behind. -/
theorem witness_HeartbeatExpiryLapses :
    queued.resetn = true ∧ (queued.sessions.get 0).state = .attached ∧ (queued.sessions.get 0).deadline = some 500000
      ∧ queued.vote.running = false := by
  and_intros <;> decide +kernel

/-- `committed` with H0 the one host ATTACHED. -/
def single : State :=
  { committed false with
    sessions := Table.ofFn fun h => if h = 0 then attached else { attached with state := .detached, deadline := none } }

/-- A vote in which H0 alone is required, and has not voted. -/
def lone : State := { single with vote := ⟨true, some 2000000, 0x1#4, 0#4⟩ }

/-- A vote in which H2 alone has not voted. -/
def nearly : State :=
  { committed true with
    sessions := Table.ofFn fun h => { (committed true).sessions.get h with voted := h == 0 || h == 1 }
    vote := ⟨true, some 2000000, 0x7#4, 0x3#4⟩ }

/-- A DETACH and a heartbeat expiry of a vote that runs on; the departure of the host alone in the required set, and of the one that
has not voted. -/
theorem witness_DepartureDecidesTheVote :
    ((asks (committed true) 1 .detach []).resetn = true ∧ (asks (committed true) 1 .detach []).voteRight
      ∧ (asks (committed true) 1 .detach []).vote.running = true
        ∧ ((asks (committed true) 1 .detach []).sessions.get 0).state = .attached
        ∧ ((asks (committed true) 1 .detach []).sessions.get 0).deadline = some 500000
        ∧ (asks (committed true) 1 .detach []).voteRight
        ∧ (asks (committed true) 1 .detach []).waits 1 (ask .detach [])
        ∧ ((asks (committed true) 1 .detach []).sessions.get 1).state = .attached
        ∧ (1#16) = ((asks (committed true) 1 .detach []).sessions.get 1).epoch)
      ∧ (lone.resetn = true ∧ lone.voteRight ∧ lone.vote.running = true ∧ (lone.sessions.get 0).state = .attached
        ∧ (lone.sessions.get 0).deadline = some 500000 ∧ lone.vote.required &&& ~~~ bitOf 0 = 0#4)
      ∧ (nearly.resetn = true ∧ nearly.voteRight ∧ nearly.vote.running = true ∧ (nearly.sessions.get 2).state = .attached
        ∧ (nearly.sessions.get 2).deadline = some 500000
        ∧ nearly.vote.voted &&& ~~~ bitOf 2 = nearly.vote.required &&& ~~~ bitOf 2) := by
  and_intros <;> decide +kernel

/-- An ATTACH moves the epoch. -/
theorem witness_EpochChangesAtAttachAlone :
    ∃ t, exec (.attach 0 0) (asks State.reset 0 .attach (twoBytes 1) 0#16) = .next t
      ∧ (t.sessions.get 0).epoch ≠ ((asks State.reset 0 .attach (twoBytes 1) 0#16).sessions.get 0).epoch :=
  ⟨_, rfl, by decide +kernel⟩

/-- The claim of L5 alone, PUSH_PULL, under ticket 4. -/
def claimL5 : List Byte := [4#8, 0#8, 1#8, 5#8, 0x04#8]

/-- H0's CLAIM of L5 is in hand. -/
def asksL5 (s : State) : State := asks s 0 .claim claimL5

/-- A state whose every slot holds a record of H1. -/
def full : State := { hosts with slots := Table.fill 32 (some (waiter false none none)) }

/-- A state with a quota of 32 for H0 and 32 notices on its board. -/
def laden : State :=
  { hosts with
    profile := { hosts.profile with hosts := Table.fill 4 { priority := 0, quota := 32 } }
    boards := hosts.boards.set 0
      { Board.empty with notices := (List.range 32).map fun i => (BitVec.ofNat 8 (100 + i), .revoked), attn := true } }

/-- A state with L5 closed to H0, G1 (L4 to L7) bonded, and a quota for H0. -/
def closed (line bond : Bool) (quota : Nat) (s : State) : State :=
  { s with profile := { s.profile with
      lines := if line then s.profile.lines.set 5 { mask := 0xE#4, rest := .float } else s.profile.lines
      bonded := if bond then 0x002#12 else 0#12
      hosts := s.profile.hosts.set 0 { priority := 0, quota := quota } } }

/-- The arguments of `claimL5`. -/
def argsL5 : ClaimArgs := ⟨4#8, false, none, [⟨5, ⟨.pushPull, false, .none, 0⟩⟩]⟩

/-- H0's CLAIM of L5 is taken, and checks 1 to 3 pass. -/
def unforbidden (s : State) : Prop :=
  s.takes .claim 0 (ask .claim claimL5) ∧ claimArgs claimL5 = some argsL5 ∧ (∀ l, ¬ s.forbids 0 argsL5 l)
    ∧ ∀ g, ¬ s.splits argsL5 g

/-- Clauses of ClaimRefused, the first of them ClaimPayloadsRead's too: an empty payload; L5 closed to H0; G1 split. -/
theorem witness_ClaimRefused_checks_1_to_3 :
    ((asks hosts 0 .claim []).takes .claim 0 (ask .claim []) ∧ claimMalformed [])
      ∧ claimArgs claimL5 = some argsL5
      ∧ (∃ s : State, s.takes .claim 0 (ask .claim claimL5) ∧ s.forbids 0 argsL5 5 ∧ ∀ m, m < 5 → ¬ s.forbids 0 argsL5 m)
      ∧ ∃ s : State, s.takes .claim 0 (ask .claim claimL5) ∧ (∀ l, ¬ s.forbids 0 argsL5 l) ∧ s.splits argsL5 1
          ∧ ∀ m, m < 1 → ¬ s.splits argsL5 m := by
  refine ⟨?_, ?_, ⟨asksL5 (closed true false 8 hosts), ?_⟩, ⟨asksL5 (closed false true 8 hosts), ?_⟩⟩ <;> and_intros <;>
    decide +kernel

/-- Clauses of ClaimRefused: the ticket of a notice; a quota of 1 reached; 32 notices; no FREE slot. -/
theorem witness_ClaimRefused_checks_4_to_7 :
    (∃ s, unforbidden s ∧ s.ticketTaken 0 4#8)
      ∧ (∃ s, unforbidden s ∧ ¬ s.ticketTaken 0 4#8 ∧ (s.profile.hosts.get 0).quota ≤ s.countOf 0)
      ∧ (∃ s, unforbidden s ∧ ¬ s.ticketTaken 0 4#8 ∧ s.countOf 0 < (s.profile.hosts.get 0).quota
          ∧ 32 ≤ s.countOf 0 + s.orphansOf 0)
      ∧ ∃ s, unforbidden s ∧ ¬ s.ticketTaken 0 4#8 ∧ s.countOf 0 < (s.profile.hosts.get 0).quota
          ∧ s.countOf 0 + s.orphansOf 0 < 32 ∧ ∀ i, s.slots.get i ≠ none := by
  unfold unforbidden
  refine ⟨⟨asksL5 (hosts.post 0 4#8 .revoked), ?_⟩, ⟨asksL5 (closed false false 1 (holding .held none)), ?_⟩,
    ⟨asksL5 laden, ?_⟩, ⟨asksL5 full, ?_⟩⟩ <;> and_intros <;> decide +kernel

/-- The last clause of ClaimRefused: a try-only claim of a held line. -/
theorem witness_ClaimRefused_try_only :
    ∃ s : State, ∃ p, s.takes .claim 0 (ask .claim p)
      ∧ ∃ a ∈ claimArgs p, s.passes 0 a ∧ ¬ s.grantsArrival 0 a ∧ a.limit = some 0 := by
  refine ⟨asks queued 0 .claim [4#8, 2#8, 0#8, 0#8, 1#8, 0#8, 0x04#8], [4#8, 2#8, 0#8, 0#8, 1#8, 0#8, 0x04#8], ?_⟩
  and_intros <;> decide +kernel

/-- `s` with a settle time of 0. -/
def unsettled (s : State) : State := { s with profile := { s.profile with settle := 0 } }

/-- A claim granted into SETTLING, and into HELD. -/
theorem witness_ClaimGrantedAtOnce :
    (∃ s, unforbidden s ∧ s.passes 0 argsL5 ∧ s.grantsArrival 0 argsL5 ∧ s.lowestFree 2 ∧ s.profile.settle = 10)
      ∧ ∃ s, unforbidden s ∧ s.passes 0 argsL5 ∧ s.grantsArrival 0 argsL5 ∧ s.lowestFree 2 ∧ s.profile.settle = 0 := by
  unfold unforbidden
  refine ⟨⟨asksL5 queued, ?_⟩, ⟨asksL5 (unsettled queued), ?_⟩⟩ <;> and_intros <;> decide +kernel

/-- A claim queued behind a holder and a record that waits. -/
theorem witness_ClaimQueued :
    ∃ s : State, ∃ p, s.takes .claim 0 (ask .claim p) ∧ s.lowestFree 2 ∧ s.entriesDistinct ∧ s.noneGrantable
      ∧ ∃ a ∈ claimArgs p, s.passes 0 a ∧ ¬ s.grantsArrival 0 a ∧ a.limit ≠ some 0 := by
  refine ⟨asks queued 0 .claim [4#8, 0#8, 1#8, 0#8, 0x04#8], [4#8, 0#8, 1#8, 0#8, 0x04#8], ?_⟩
  and_intros <;> decide +kernel

/-- A RELEASE of a HELD record that another waits behind. -/
theorem witness_ReleaseFreesTheRecord :
    (asks queued 0 .release [1#8]).takes .release 0 (ask .release [1#8])
      ∧ (asks queued 0 .release [1#8]).owns 0 1#8 0 (mine .held none) := by
  and_intros <;> decide +kernel

/-- H1's RELEASE of its WAITING record: L0 stands, H0's record holding it, and so does L47, which no record names. -/
theorem witness_lineStands :
    lineStands (asks queued 1 .release [2#8]) (after (asks queued 1 .release [2#8]) (.release 0)) 0
      ∧ lineStands (asks queued 1 .release [2#8]) (after (asks queued 1 .release [2#8]) (.release 0)) 47
      ∧ (after (asks queued 1 .release [2#8]) (.release 0)).slots.get 0 = some (mine .held none) := by
  refine ⟨Or.inl ⟨0, mine .held none, ?_⟩, Or.inr ?_, ?_⟩
  · and_intros <;> decide +kernel
  all_goals decide +kernel

/-- A QUERY CLAIM of a WAITING record, and of a HELD one. -/
theorem witness_QueryClaimReports :
    ((asks queued 1 .queryClaim [2#8]).takes .queryClaim 1 (ask .queryClaim [2#8])
        ∧ (asks queued 1 .queryClaim [2#8]).owns 1 2#8 1 (waiter false (some 5) (some 50000))
        ∧ (asks queued 1 .queryClaim [2#8]).entriesDistinct)
      ∧ ((asks queued 0 .queryClaim [1#8]).takes .queryClaim 0 (ask .queryClaim [1#8])
        ∧ (asks queued 0 .queryClaim [1#8]).owns 0 1#8 0 (mine .held none)
        ∧ (asks queued 0 .queryClaim [1#8]).entriesDistinct) := by
  and_intros <;> decide +kernel

/-- H0's record SETTLING, with H1's preemptor against it. -/
def faced : State :=
  { holding .settling (some 100) with
    slots := (holding .settling (some 100)).slots.set 1 (some (waiter true none none)), eligible := [1] }

/-- A settle end that no preemptor stands against, and one that one does. -/
theorem witness_SettleEndBringsTheClaim :
    (holding .settling (some 100)).resetn = true ∧ (holding .settling (some 100)).slots.get 0 = some (mine .settling (some 100))
      ∧ (holding .settling (some 100)).entriesDistinct
      ∧ ¬ (holding .settling (some 100)).facesPreemptor (mine .settling (some 100))
      ∧ faced.slots.get 0 = some (mine .settling (some 100)) ∧ faced.entriesDistinct
      ∧ faced.facesPreemptor (mine .settling (some 100))
      ∧ ((mine .settling (some 100)).lines.map fun e => e.line).Nodup := by
  and_intros <;> decide +kernel

/-- The two states keep the set of preemptors and yield as the statements' hypothesis says; so do those of the invariants' witnesses. -/
theorem witness_yieldsRight :
    (holding .settling (some 100)).yieldsRight ∧ faced.yieldsRight ∧ queued.yieldsRight ∧ yielding.yieldsRight :=
  ⟨yieldsRight_of_check (by decide +kernel) (by decide +kernel), yieldsRight_of_check (by decide +kernel) (by decide +kernel),
    yieldsRight_of_check (by decide +kernel) (by decide +kernel), yieldsRight_of_check (by decide +kernel) (by decide +kernel)⟩

/-- A yield end, and a wait end. -/
theorem witness_DeadlinesFreeRecords :
    yielding.resetn = true ∧ yielding.owns 0 1#8 0 (mine .yielding (some 50000))
      ∧ queued.resetn = true ∧ queued.owns 1 2#8 1 (waiter false (some 5) (some 50000)) := by
  and_intros <;> decide +kernel

/-- A RELEASE grants a WAITING record: into SETTLING, and into HELD where the settle time is 0. -/
theorem witness_WaitersAreGrantedWhole :
    (∃ t r', exec (.release 0) (asks queued 0 .release [1#8]) = .next t ∧ t.slots.get 1 = some r' ∧ r'.state = .settling)
      ∧ (∃ t r', exec (.release 0) (asks (unsettled queued) 0 .release [1#8]) = .next t ∧ t.slots.get 1 = some r'
          ∧ r'.state = .held)
      ∧ (asks queued 0 .release [1#8]).slots.get 1 = some (waiter false (some 5) (some 50000))
      ∧ (asks queued 0 .release [1#8]).entriesDistinct
      ∧ (asks queued 0 .release [1#8]).owns 1 2#8 1 (waiter false (some 5) (some 50000)) :=
  ⟨⟨after (asks queued 0 .release [1#8]) (.release 0),
      { waiter false (some 5) (some 50000) with state := .settling, deadline := some 100, span := 10 }, rfl, by (and_intros <;> decide +kernel)⟩,
    ⟨after (asks (unsettled queued) 0 .release [1#8]) (.release 0),
      { waiter false (some 5) (some 50000) with state := .held, deadline := none, span := 0 }, rfl, by (and_intros <;> decide +kernel)⟩,
    by (and_intros <;> decide +kernel)⟩

/-- RELEASE with ticket 0, and with a ticket of no record. -/
theorem witness_TicketRequestsRefused_release :
    (asks queued 0 .release [0#8]).takes .release 0 (ask .release [0#8])
      ∧ (asks queued 0 .release [2#8]).takes .release 0 (ask .release [2#8]) ∧ (asks queued 0 .release [2#8]).ownsNone 0 2#8 := by
  and_intros <;> decide +kernel

/-- The line requests: an empty position set, a ticket of no record, a position past the record's two lines, a SETTLING record, an input
mode, a parked line. -/
theorem witness_TicketRequestsRefused_lines :
    ((asks queued 0 .setLevels [1#8, 0#8, 0#8]).takes .setLevels 0 (ask .setLevels [1#8, 0#8, 0#8])
        ∧ (asks queued 0 .setLevels [1#8, 0#8, 0#8]).lineRefused .setLevels 0 [1#8, 0#8, 0#8] .badArgument [])
      ∧ ((asks queued 0 .clearFault [2#8]).takes .clearFault 0 (ask .clearFault [2#8])
        ∧ (asks queued 0 .clearFault [2#8]).lineRefused .clearFault 0 [2#8] .noSuchClaim [])
      ∧ ((asks queued 0 .reconfigure [1#8, 1#8, 2#8, 0#8]).takes .reconfigure 0 (ask .reconfigure [1#8, 1#8, 2#8, 0#8])
        ∧ (asks queued 0 .reconfigure [1#8, 1#8, 2#8, 0#8]).lineRefused .reconfigure 0 [1#8, 1#8, 2#8, 0#8] .badArgument [])
      ∧ ((asks (holding .settling (some 100)) 0 .clearFault [1#8]).takes .clearFault 0 (ask .clearFault [1#8])
        ∧ (asks (holding .settling (some 100)) 0 .clearFault [1#8]).lineRefused .clearFault 0 [1#8] .wrongState [])
      ∧ ((asks queued 0 .setLevels [1#8, 2#8, 0#8]).takes .setLevels 0 (ask .setLevels [1#8, 2#8, 0#8])
        ∧ (asks queued 0 .setLevels [1#8, 2#8, 0#8]).lineRefused .setLevels 0 [1#8, 2#8, 0#8] .wrongMode [1#8])
      ∧ ((asks parked 0 .setLevels [1#8, 1#8, 0#8]).takes .setLevels 0 (ask .setLevels [1#8, 1#8, 0#8])
        ∧ (asks parked 0 .setLevels [1#8, 1#8, 0#8]).lineRefused .setLevels 0 [1#8, 1#8, 0#8] .lineFault [0#8]) := by
  and_intros <;> decide +kernel

/-- SET LEVELS on the one driven line. -/
theorem witness_SetLevelsMovesTheLevels :
    (asks queued 0 .setLevels [1#8, 1#8, 0#8]).takes .setLevels 0 (ask .setLevels [1#8, 1#8, 0#8])
      ∧ (asks queued 0 .setLevels [1#8, 1#8, 0#8]).owns 0 1#8 0 (mine .held none)
      ∧ (1#8).toNat < 2 ^ (mine .held none).lines.length
      ∧ (asks queued 0 .setLevels [1#8, 1#8, 0#8]).cellsMatch 0 (mine .held none)
      ∧ ∀ x ∈ (mine .held none).lines.zipIdx, (1#8).getLsbD x.2 = true →
          (x.1.setting.mode = .openDrain ∨ x.1.setting.mode = .pushPull)
            ∧ ((asks queued 0 .setLevels [1#8, 1#8, 0#8]).cells.get x.1.line).parked = false := by
  and_intros <;> decide +kernel

/-- RECONFIGURE of both positions. -/
theorem witness_ReconfigureReplacesSettings :
    (asks queued 0 .reconfigure [1#8, 2#8, 1#8, (drives false).byte, 0#8, reads.byte]).takes .reconfigure 0
        (ask .reconfigure ([1#8, BitVec.ofNat 8 [((1 : Byte), drives false), (0, reads)].length]
          ++ [((1 : Byte), drives false), (0, reads)].flatMap fun x => [x.1, BitVec.ofNat 8 x.2.number]))
      ∧ (asks queued 0 .reconfigure [1#8, 2#8, 1#8, (drives false).byte, 0#8, reads.byte]).owns 0 1#8 0 (mine .held none)
      ∧ (asks queued 0 .reconfigure [1#8, 2#8, 1#8, (drives false).byte, 0#8, reads.byte]).cellsMatch 0 (mine .held none) := by
  and_intros <;> decide +kernel

/-- CLEAR FAULT of the whole record, and of the position parked. -/
theorem witness_ClearFaultUnparks :
    (∀ p ∈ [[1#8], [1#8, 3#8]], (asks parked 0 .clearFault p).takes .clearFault 0 (ask .clearFault p)
        ∧ (asks parked 0 .clearFault p).owns 0 1#8 0 (mine .held none)
        ∧ (asks parked 0 .clearFault p).cellsMatch 0 (mine .held none))
      ∧ (3#8).toNat < 2 ^ (mine .held none).lines.length := by
  and_intros <;> decide +kernel

/-- READ LINES, with and without a payload. -/
theorem witness_ReadLinesReports :
    (asks queued 0 .readLines []).takes .readLines 0 (ask .readLines [])
      ∧ (asks queued 0 .readLines [0#8]).takes .readLines 0 (ask .readLines [0#8]) := by
  and_intros <;> decide +kernel

/-- QUERY LINE of a line permitted, of one closed to the issuer, and of L48, which there is not. -/
theorem witness_QueryLineReports :
    ((asks queued 0 .queryLine [47#8]).takes .queryLine 0 (ask .queryLine [47#8])
        ∧ ∀ x ∈ ((asks queued 0 .queryLine [47#8]).cells.get 47).holder, x.state ≠ .waiting)
      ∧ ((asks (closed true false 8 hosts) 0 .queryLine [5#8]).takes .queryLine 0 (ask .queryLine [5#8])
        ∧ (∀ x ∈ ((asks (closed true false 8 hosts) 0 .queryLine [5#8]).cells.get 5).holder, x.state ≠ .waiting)
        ∧ has ((asks (closed true false 8 hosts) 0 .queryLine [5#8]).profile.lines.get 5).mask 0 = false)
      ∧ ((asks queued 0 .queryLine [48#8]).takes .queryLine 0 (ask .queryLine [48#8]) ∧ 48 ≤ (48#8).toNat) := by
  and_intros <;> decide +kernel

/-- A tick that is due, and a blanking that runs. -/
theorem witness_SamplingTickFiltersWatchesCompares :
    queued.resetn = true ∧ queued.now ≤ queued.nextTick
      ∧ ((after (holding .settling (some 100)) (.settleEnd 0)).cells.get 0).blanking = some 116
      ∧ (after (holding .settling (some 100)) (.settleEnd 0)).resetn = true := by
  and_intros <;> decide +kernel

/-- FETCH NOTICES in ATTACHED and in LAPSED, with and without a payload. -/
theorem witness_FetchReturnsAndClears :
    (asks hosts 0 .fetchNotices []).resetn = true ∧ (asks hosts 0 .fetchNotices []).waits 0 (ask .fetchNotices [])
      ∧ ((asks hosts 0 .fetchNotices []).sessions.get 0).state = .attached
      ∧ ((asks hosts 0 .fetchNotices []).sessions.get 0).epoch = 1#16
      ∧ (asks hosts 3 .fetchNotices [0#8]).resetn = true ∧ (asks hosts 3 .fetchNotices [0#8]).waits 3 (ask .fetchNotices [0#8])
      ∧ ((asks hosts 3 .fetchNotices [0#8]).sessions.get 3).state = .lapsed
      ∧ ((asks hosts 3 .fetchNotices [0#8]).sessions.get 3).epoch = 1#16 := by
  and_intros <;> decide +kernel

/-- READ PROFILE of each section, and of section 3. -/
theorem witness_ReadProfileReports :
    (asks hosts 0 .readProfile [1#8]).takes .readProfile 0 (ask .readProfile [1#8])
      ∧ (asks hosts 0 .readProfile [2#8]).takes .readProfile 0 (ask .readProfile [2#8])
      ∧ (asks hosts 0 .readProfile [3#8]).takes .readProfile 0 (ask .readProfile [3#8]) := by
  and_intros <;> decide +kernel

/-- An edit that denies a record, and one that denies none. -/
theorem witness_SetLineProfileEditsAndDenies :
    (∀ p ∈ [[1#8, 0#8, 0x0D#8], [1#8, 47#8, 0x40#8]],
        (asks queued 0 .setLineProfile p).takes .setLineProfile 0 (ask .setLineProfile p)
          ∧ (asks queued 0 .setLineProfile p).editPasses .setLineProfile 0 p
          ∧ (asks queued 0 .setLineProfile p).capacityKept ∧ (asks queued 0 .setLineProfile p).presentsRight)
      ∧ queued.denies [1#8, 0#8, 0x0D#8] (waiter false (some 5) (some 50000)) := by
  and_intros <;> decide +kernel

/-- SET BOND of a group in use, and of one that is not. -/
theorem witness_SetBondBindsTheGroup :
    ∀ p ∈ [[0#8, 1#8], [11#8, 1#8]],
      (asks queued 0 .setBond p).takes .setBond 0 (ask .setBond p) ∧ (asks queued 0 .setBond p).editPasses .setBond 0 p := by
  decide +kernel

/-- SET HOST PROFILE that would leave no admin; that sets a quota of 31 for a host with 32 records; and that passes. -/
theorem witness_SetHostProfileReplacesThreeItems :
    (∀ p ∈ [[0#8, 0#8, 8#8, 0#8], [1#8, 3#8, 32#8, 1#8]],
        (asks queued 0 .setHostProfile p).takes .setHostProfile 0 (ask .setHostProfile p)
          ∧ (asks queued 0 .setHostProfile p).editPasses .setHostProfile 0 p)
      ∧ (∀ x, has queued.profile.admin x = decide (x = 0))
      ∧ ((asks full 0 .setHostProfile [1#8, 3#8, 31#8, 1#8]).takes .setHostProfile 0 (ask .setHostProfile [1#8, 3#8, 31#8, 1#8])
        ∧ (asks full 0 .setHostProfile [1#8, 3#8, 31#8, 1#8]).editPasses .setHostProfile 0 [1#8, 3#8, 31#8, 1#8]
        ∧ full.countOf 1 = 32) := by
  and_intros <;> decide +kernel

/-- SET TIMING at the ends of its ranges, and COMMIT PROFILE. -/
theorem witness_SetTimingAndCommitChangeTheProfileAlone :
    (∀ p ∈ [[255#8, 3#8, 0xE8#8, 100#8], [0#8, 0#8, 1#8, 1#8]],
        (asks hosts 0 .setTiming p).takes .setTiming 0 (ask .setTiming p) ∧ (asks hosts 0 .setTiming p).editPasses .setTiming 0 p)
      ∧ (asks hosts 0 .commitProfile []).takes .commitProfile 0 (ask .commitProfile [])
      ∧ (asks hosts 0 .commitProfile []).editPasses .commitProfile 0 [] := by
  and_intros <;> decide +kernel

/-- An edit by H1, which is no admin; one while COMMITTED; one with a vote window of 0; CLEAR ALL by H1, by H0 with a payload, and by H1 with one. -/
theorem witness_AdministrationRefused :
    ((asks hosts 1 .setTiming []).takes .setTiming 1 (ask .setTiming [])
      ∧ (asks hosts 1 .setTiming []).editRefused .setTiming 1 [] .notAdmin)
      ∧ ((asks (committed false) 0 .setBond []).takes .setBond 0 (ask .setBond [])
        ∧ (asks (committed false) 0 .setBond []).editRefused .setBond 0 [] .profileLocked)
      ∧ ((asks hosts 0 .setTiming [0#8, 0#8, 1#8, 0#8]).takes .setTiming 0 (ask .setTiming [0#8, 0#8, 1#8, 0#8])
        ∧ (asks hosts 0 .setTiming [0#8, 0#8, 1#8, 0#8]).editRefused .setTiming 0 [0#8, 0#8, 1#8, 0#8] .badArgument)
      ∧ ((asks hosts 1 .clearAll []).takes .clearAll 1 (ask .clearAll [])
      ∧ has (asks hosts 1 .clearAll []).profile.admin 1 = false)
      ∧ (asks hosts 0 .clearAll [0#8]).takes .clearAll 0 (ask .clearAll [0#8])
      ∧ has (asks hosts 0 .clearAll [0#8]).profile.admin 0 = true
      ∧ (asks hosts 1 .clearAll [0#8]).takes .clearAll 1 (ask .clearAll [0#8])
      ∧ has (asks hosts 1 .clearAll [0#8]).profile.admin 1 = false := by
  and_intros <;> decide +kernel

/-- A command that runs while the profile is COMMITTED. -/
theorem witness_CommittedContentsStand :
    ∃ t, exec (.reopenVote 0) (asks (committed false) 0 .reopenVote []) = .next t
      ∧ (asks (committed false) 0 .reopenVote []).profile.state = .committed :=
  ⟨_, rfl, by decide +kernel⟩

/-- REOPEN VOTE in OPEN; one that starts a vote; one that adds to it; one whose issuer has voted; one that completes at once; and one
with a payload. -/
theorem witness_ReopenVoteCounts :
    (∀ x ∈ [(hosts, 0), (committed false, 0), (committed true, 1), (committed true, 0), (single, 0)],
        (asks x.1 x.2 .reopenVote []).takes .reopenVote x.2 (ask .reopenVote [])
          ∧ (asks x.1 x.2 .reopenVote []).voteRight ∧ (asks x.1 x.2 .reopenVote []).voteUndecided)
      ∧ ∀ x ∈ [(hosts, 0), (committed true, 1)],
        (asks x.1 x.2 .reopenVote [0#8]).takes .reopenVote x.2 (ask .reopenVote [0#8])
          ∧ (asks x.1 x.2 .reopenVote [0#8]).voteRight ∧ (asks x.1 x.2 .reopenVote [0#8]).voteUndecided := by
  decide +kernel

/-- A vote whose deadline can arrive. -/
theorem witness_VoteDeadlineFailsTheVote :
    (committed true).resetn = true ∧ (committed true).vote.running = true ∧ (committed true).vote.deadline = some 2000000 := by
  and_intros <;> decide +kernel

/-- CLEAR ALL by the admin, records of two hosts in the table. -/
theorem witness_ClearAllEmptiesTheTable :
    (asks yielding 0 .clearAll []).takes .clearAll 0 (ask .clearAll [])
      ∧ has (asks yielding 0 .clearAll []).profile.admin 0 = true := by
  and_intros <;> decide +kernel

/-- A state that meets every invariant at once, records HELD and WAITING in it, and the next step from it: the RELEASE at the front of
its queue. It meets the hypotheses of every statement on what a step keeps, yieldsRight by witness_yieldsRight. -/
theorem witness_EveryStep :
    (∃ t, step { asks queued 0 .release [1#8] with pending := [.release 0] } = .next t)
      ∧ queued.presentsRight ∧ queued.attnRight ∧ queued.boardsInForm ∧ queued.capacityKept ∧ queued.cellsFollow
      ∧ queued.flagsForHeldLines ∧ queued.entriesDistinct ∧ queued.noneGrantable ∧ queued.deadlinesRight
      ∧ queued.heartbeatsRight ∧ queued.recordsAttached ∧ queued.withinQuota ∧ queued.hasAdmin ∧ queued.voteRight ∧ queued.voteUndecided
      ∧ queued.intervalsRight :=
  ⟨⟨_, rfl⟩, by (and_intros <;> decide +kernel)⟩

/-- The same with a record YIELDING to a preemptor, and with a vote that runs. -/
theorem witness_EveryStep_yielding_and_voting :
    yielding.cellsFollow ∧ yielding.noneGrantable ∧ yielding.deadlinesRight ∧ yielding.presentsRight
      ∧ yielding.intervalsRight ∧ (committed true).voteRight ∧ (committed true).voteUndecided ∧ (committed true).hasAdmin := by
  and_intros <;> decide +kernel

/-- H1's CLAIM of L0 with the preempt flag is in hand, H0 holding L0. -/
def demands : State := asks (holding .held none) 1 .claim [2#8, 1#8, 1#8, 0#8, 0x04#8]

/-- H1's RELEASE of its preemptor is in hand, H0's record YIELDING to it. -/
def relents : State := asks yielding 1 .release [2#8]

/-- A step that passes H0's record from HELD to YIELDING, and one that passes it back. -/
theorem witness_EveryStepYieldsToPreemptors :
    (∃ t r', step { demands with pending := [.claim 0] } = .next t ∧ demands.slots.get 0 = some (mine .held none)
        ∧ t.slots.get 0 = some r' ∧ r'.state = .yielding ∧ demands.owns 0 1#8 0 (mine .held none)
        ∧ demands.cellsMatch 0 (mine .held none) ∧ demands.entriesDistinct)
      ∧ (∃ t r', step { relents with pending := [.release 0] } = .next t ∧ relents.slots.get 0 = some (mine .yielding (some 50000))
        ∧ t.slots.get 0 = some r' ∧ r'.state = .held ∧ relents.owns 0 1#8 0 (mine .yielding (some 50000))
        ∧ relents.cellsMatch 0 (mine .yielding (some 50000)) ∧ relents.entriesDistinct)
      ∧ demands.yieldsRight ∧ relents.yieldsRight :=
  ⟨⟨after demands (.claim 0), (mine .held none).inYielding 0 50, rfl, by (and_intros <;> decide +kernel)⟩,
    ⟨after relents (.release 0), mine .held none, rfl, by (and_intros <;> decide +kernel)⟩,
    yieldsRight_of_check (by decide +kernel) (by decide +kernel), yieldsRight_of_check (by decide +kernel) (by decide +kernel)⟩

end Sys2Proof.Tests
end

section
/-! SUPPORT. A request taken while its session stands: what its block makes of it, and what a bare refusal leaves. -/

namespace Sys2Proof.Machine

/-- A block with an arbiter handles and answers the request it takes, while the session it was admitted under stands (R94). -/
theorem State.takeChosen_of_takes {s : State} {k : Kind} {n : HostId} {q : Request} (h : s.takes k n q) (dt : Nat)
    (f : State → HostId → Request → State × Answer) :
    (s.elapse dt).takeChosen k f = (f (s.turn dt k n) n q).1.reply n q (f (s.turn dt k n) n q).2 := by
  obtain ⟨hoffers, hattached, hepoch⟩ := h
  have hpass : recheck ((s.turn dt k n).sessions.get n) q.kind q.epoch = none :=
    (recheck_eq_none _ _ _).mpr (by simp [State.turn, hattached, hepoch])
  rw [State.takeChosen_of_offers (s := s.elapse dt) hoffers]
  change (s.turn dt k n).take n q f = _
  rcases State.take_cases (s.turn dt k n) n q f with ⟨st, hst, _⟩ | ⟨_, htake⟩
  · rw [hpass] at hst
    cases hst
  · exact htake

/-- A reply from the state a handling starts from answers, and changes nothing else (R156). -/
theorem State.onlyAnswers_turn_reply (s : State) (dt : Nat) (k : Kind) (n : HostId) (q : Request) (a : Answer) :
    onlyAnswers s ((s.turn dt k n).reply n q a) dt k n q a.status a.payload := by
  refine ⟨rfl, ?_, fun m hm => ?_⟩
  · simp [State.turn, Port.answer, Request.signature, kind_code_eq]
  · simp [State.turn, Table.get_set_ne, hm]

end Sys2Proof.Machine
end

section
/-! SUPPORT. The line entries of a CLAIM: setting bytes, and the two bytes of each entry, read by position (R16, R161). -/

namespace Sys2Proof.Machine

/-! ## Setting bytes -/

/-- A mode read from a code has that code (R161). -/
theorem code_of_mode_ofCode {c : Nat} {m : Mode} (h : Mode.ofCode c = some m) : m.code = BitVec.ofNat 8 c := by
  unfold Mode.ofCode at h
  split at h <;> cases h <;> rfl

/-- The watch read from a two-bit code has that code (R161). -/
theorem code_watch_ofCode {c : Nat} (h : c < 4) : (Watch.ofCode c).code = BitVec.ofNat 8 c := by
  match c, h with
  | 0, _ | 1, _ | 2, _ | 3, _ => rfl

/-- A setting read from a byte has that byte (R161). -/
theorem byte_of_setting_ofByte {b : Byte} {st : Setting} (h : Setting.ofByte b = some st) : st.byte = b := by
  obtain ⟨m, hm, rfl⟩ := Option.map_eq_some_iff.mp h
  have hwatch := code_watch_ofCode (b.extractLsb' 4 2).isLt
  simp only [Setting.byte, code_of_mode_ofCode hm, hwatch, BitVec.ofNat_toNat, BitVec.val_toFin]
  apply BitVec.eq_of_getLsbD_eq
  intro i hi
  match i, hi with
  | 0, _ | 1, _ | 2, _ | 3, _ | 4, _ | 5, _ | 6, _ | 7, _ => cases b.getLsbD 3 <;> simp

/-- A byte gives a setting exactly when it is the one R161 lays out for it. -/
theorem setting_ofByte_eq_some (b : Byte) (st : Setting) :
    Setting.ofByte b = some st ↔ b = BitVec.ofNat 8 st.number := by
  rw [← setting_byte_eq]
  exact ⟨fun h => (byte_of_setting_ofByte h).symm, fun h => h ▸ setting_ofByte_byte st⟩

/-- No mode has a code above 4 (R16). -/
theorem mode_ofCode_eq_none (c : Nat) : Mode.ofCode c = none ↔ 5 ≤ c := by
  match c with
  | 0 | 1 | 2 | 3 | 4 => simp [Mode.ofCode]
  | c + 5 => simp [Mode.ofCode]

/-- A byte gives no setting exactly when its mode code is 5 to 7 (R16). -/
theorem setting_ofByte_eq_none (b : Byte) : Setting.ofByte b = none ↔ 5 ≤ b.toNat % 8 := by
  rw [Setting.ofByte, Option.map_eq_none_iff, mode_ofCode_eq_none]
  simp

/-! ## The entries by position -/

/-- Bytes `2j` and `2j + 1` of `es` spell the entry `e` (R161). -/
def spells (es : List Byte) (j : Nat) (e : LineEntry) : Prop :=
  (es.getD (2 * j) 0#8).toNat = e.line.val ∧ es.getD (2 * j + 1) 0#8 = BitVec.ofNat 8 e.setting.number

/-- Bytes `2j` and `2j + 1` of `es` name a line of 48 or above, or a mode code of 5 to 7 (R16). -/
def misspelt (es : List Byte) (j : Nat) : Prop :=
  48 ≤ (es.getD (2 * j) 0#8).toNat ∨ 5 ≤ (es.getD (2 * j + 1) 0#8).toNat % 8

/-- The first pair of bytes spells by itself. -/
@[simp] theorem spells_zero (l b : Byte) (rest : List Byte) (e : LineEntry) :
    spells (l :: b :: rest) 0 e ↔ l.toNat = e.line.val ∧ b = BitVec.ofNat 8 e.setting.number := Iff.rfl

/-- The later pairs spell what they spell without the first. -/
@[simp] theorem spells_succ (l b : Byte) (rest : List Byte) (j : Nat) (e : LineEntry) :
    spells (l :: b :: rest) (j + 1) e ↔ spells rest j e := Iff.rfl

/-- The first pair of bytes is misspelt by itself. -/
@[simp] theorem misspelt_zero (l b : Byte) (rest : List Byte) :
    misspelt (l :: b :: rest) 0 ↔ 48 ≤ l.toNat ∨ 5 ≤ b.toNat % 8 := Iff.rfl

/-- The later pairs are misspelt where they are without the first. -/
@[simp] theorem misspelt_succ (l b : Byte) (rest : List Byte) (j : Nat) :
    misspelt (l :: b :: rest) (j + 1) ↔ misspelt rest j := Iff.rfl

/-- A pair of bytes spells one entry at most. -/
theorem spells_inj {es : List Byte} {j : Nat} {e e' : LineEntry} (h : spells es j e) (h' : spells es j e') : e = e' := by
  obtain ⟨hl, hs⟩ := h
  obtain ⟨hl', hs'⟩ := h'
  obtain ⟨l, st⟩ := e
  obtain ⟨l', st'⟩ := e'
  have hline : l = l' := Fin.ext (hl.symm.trans hl')
  have hsetting : st = st' := Option.some.inj
    (((setting_ofByte_eq_some _ st).mpr hs).symm.trans ((setting_ofByte_eq_some _ st').mpr hs'))
  rw [hline, hsetting]

/-- A pair of bytes and those after it are read as the entry the pair spells, and the entries of the others. -/
theorem lineEntries_cons_cons_eq_some (l b : Byte) (rest : List Byte) (entries : List LineEntry) :
    lineEntries (l :: b :: rest) = some entries ↔
      ∃ e tail, (l.toNat = e.line.val ∧ b = BitVec.ofNat 8 e.setting.number) ∧ lineEntries rest = some tail
        ∧ entries = e :: tail := by
  rw [lineEntries]
  constructor
  · intro h
    split at h
    · split at h
      · rename_i st tail hst htail
        exact ⟨_, tail, ⟨rfl, (setting_ofByte_eq_some b st).mp hst⟩, htail, (Option.some.inj h).symm⟩
      · cases h
    · cases h
  · rintro ⟨e, tail, ⟨hl, hb⟩, htail, rfl⟩
    have hst := (setting_ofByte_eq_some b e.setting).mpr hb
    have hlt : l.toNat < 48 := hl ▸ e.line.isLt
    simp [hst, htail, hl]

/-- A pair of bytes and those after it are not read exactly when the pair is misspelt or the others are not read. -/
theorem lineEntries_cons_cons_eq_none (l b : Byte) (rest : List Byte) :
    lineEntries (l :: b :: rest) = none ↔ (48 ≤ l.toNat ∨ 5 ≤ b.toNat % 8) ∨ lineEntries rest = none := by
  rw [lineEntries, ← setting_ofByte_eq_none]
  by_cases hlt : l.toNat < 48
  · cases Setting.ofByte b <;> cases lineEntries rest <;> simp [hlt]
  · simp [hlt, Nat.le_of_not_lt hlt]

/-- The entries read from `es` are those its pairs of bytes spell, in order. -/
theorem lineEntries_spells {es : List Byte} {entries : List LineEntry} (h : lineEntries es = some entries) :
    es.length = 2 * entries.length ∧ ∀ j (hj : j < entries.length), spells es j entries[j] := by
  match es with
  | [] =>
    obtain rfl : [] = entries := by simpa [lineEntries] using h
    simp
  | [_] => simp [lineEntries] at h
  | l :: b :: rest =>
    obtain ⟨e, tail, hpair, htail, rfl⟩ := (lineEntries_cons_cons_eq_some l b rest entries).mp h
    obtain ⟨hlen, hspells⟩ := lineEntries_spells htail
    refine ⟨by simp only [List.length_cons, hlen]; omega, fun j hj => ?_⟩
    cases j with
    | zero => exact (spells_zero l b rest e).mpr hpair
    | succ j => exact (spells_succ l b rest j _).mpr (hspells j (by simpa using hj))

/-- As many pairs of bytes as there are entries to read are not read exactly when one is misspelt (R16). -/
theorem lineEntries_eq_none {es : List Byte} {k : Nat} (hlen : es.length = 2 * k) :
    lineEntries es = none ↔ ∃ j, j < k ∧ misspelt es j := by
  induction k generalizing es with
  | zero =>
    obtain rfl : es = [] := by simpa using hlen
    simp [lineEntries]
  | succ k ih =>
    match es, hlen with
    | l :: b :: rest, hlen =>
      rw [lineEntries_cons_cons_eq_none, ih (by simp only [List.length_cons] at hlen; omega), Nat.exists_lt_succ_left]
      simp

end Sys2Proof.Machine
end

section
/-! SUPPORT. Check 1 of a CLAIM: what its payload is read as, and when it is malformed (R3, R16, R161). -/

namespace Sys2Proof.Machine

/-! ## Entries in ascending order -/

/-- Sorting the entries keeps them. -/
@[simp] theorem mem_sortEntries (es : List LineEntry) (e : LineEntry) : e ∈ sortEntries es ↔ e ∈ es :=
  mem_sortBy _ es e

/-- Sorted entries that name each line once ascend by line (R3). -/
theorem sortEntries_ascending {es : List LineEntry} (h : (es.map fun e => e.line).Nodup) :
    (sortEntries es).Pairwise fun x y => x.line < y.line := by
  have hordered : (sortEntries es).Pairwise fun x y => x.line ≤ y.line := by
    refine (sortBy_ordered _ (fun x y hxy => ?_) (fun x y z hxy hyz => ?_) es).imp (fun {x y} hxy => ?_)
    · simpa using le_of_lt (of_decide_eq_true hxy)
    · simpa using le_trans (not_lt.mp (of_decide_eq_false hxy)) (not_lt.mp (of_decide_eq_false hyz))
    · simpa using hxy
  have hdistinct : (sortEntries es).Pairwise fun x y => x.line ≠ y.line :=
    List.pairwise_map.mp (((sortBy_perm _ es).map _).nodup_iff.mpr h)
  exact hordered.imp₂ (fun _ _ hle hne => lt_of_le_of_ne hle hne) hdistinct

/-- The entries read name each line once exactly when no two of their pairs of bytes name the same line. -/
theorem nodup_lines_iff {es : List Byte} {entries : List LineEntry} (h : lineEntries es = some entries) :
    (entries.map fun e => e.line).Nodup ↔
      ¬ ∃ j, j < entries.length ∧ ∃ i, i < j ∧ es.getD (2 * i) 0#8 = es.getD (2 * j) 0#8 := by
  obtain ⟨_, hspells⟩ := lineEntries_spells h
  have hsame : ∀ i j (hi : i < entries.length) (hj : j < entries.length),
      es.getD (2 * i) 0#8 = es.getD (2 * j) 0#8 ↔ entries[i].line = entries[j].line := fun i j hi hj => by
    rw [← BitVec.toNat_inj, (hspells i hi).1, (hspells j hj).1, Fin.ext_iff]
  rw [List.Nodup, List.pairwise_map, List.pairwise_iff_getElem]
  constructor
  · rintro hne ⟨j, hj, i, hij, heq⟩
    exact hne i j (by omega) hj hij ((hsame i j _ hj).mp heq)
  · intro hne i j hi hj hij heq
    exact hne ⟨j, hj, i, hij, (hsame i j hi hj).mpr heq⟩

/-! ## The fields of a CLAIM -/

/-- Pair `j` of the bytes `es` fails R16: it is misspelt, or names the line of an earlier pair. -/
def failsEntry (es : List Byte) (j : Nat) : Prop :=
  misspelt es j ∨ ∃ i, i < j ∧ es.getD (2 * i) 0#8 = es.getD (2 * j) 0#8

/-- The fixed fields and the entry bytes of a CLAIM are refused exactly in the cases of R16. -/
theorem claimFields_eq_none (tk : Byte) (preempt : Bool) (limit : Option Nat) (k : Byte) (es : List Byte) :
    claimFields tk preempt limit k es = none ↔
      es.length ≠ 2 * k.toNat ∨ tk = 0#8 ∨ k.toNat = 0 ∨ 8 < k.toNat
        ∨ (∃ j, j < k.toNat ∧ failsEntry es j) ∨ (preempt = true ∧ limit = some 0) := by
  unfold claimFields
  split
  · rename_i hfixed
    simp only [true_iff]
    tauto
  · rename_i hfixed
    obtain ⟨hticket, hzero, height, hlen, htry⟩ := by simpa only [not_or, ne_eq, not_not] using hfixed
    have hsplit : (∃ j, j < k.toNat ∧ failsEntry es j) ↔ lineEntries es = none
        ∨ ∃ j, j < k.toNat ∧ ∃ i, i < j ∧ es.getD (2 * i) 0#8 = es.getD (2 * j) 0#8 := by
      simp only [failsEntry, and_or_left, exists_or, lineEntries_eq_none hlen]
    simp only [ne_eq, hlen, not_true, hticket, hzero, height, htry, hsplit, or_false, false_or]
    cases hread : lineEntries es with
    | none => simp
    | some entries =>
      obtain ⟨hcount, _⟩ := lineEntries_spells hread
      have hk : entries.length = k.toNat := by omega
      have hdistinct := nodup_lines_iff hread
      rw [hk] at hdistinct
      simp only [ite_eq_right_iff, reduceCtorEq, imp_false, hdistinct, not_not, false_or]

/-- What the fixed fields and the entry bytes of a CLAIM are read as, where they are not refused (R3, R161). -/
theorem claimFields_eq_some {tk : Byte} {preempt : Bool} {limit : Option Nat} {k : Byte} {es : List Byte} {a : ClaimArgs}
    (h : claimFields tk preempt limit k es = some a) :
    a.ticket = tk ∧ a.preempt = preempt ∧ a.limit = limit ∧ a.entries.Pairwise (fun x y => x.line < y.line)
      ∧ ∀ e, e ∈ a.entries ↔ ∃ j, j < k.toNat ∧ spells es j e := by
  unfold claimFields at h
  split at h
  · cases h
  · rename_i hfixed
    obtain ⟨_, _, _, hlen, _⟩ := by simpa only [not_or, ne_eq, not_not] using hfixed
    split at h
    · cases h
    · rename_i entries hread
      obtain ⟨hcount, hspells⟩ := lineEntries_spells hread
      have hk : entries.length = k.toNat := by omega
      split at h
      · rename_i hnodup
        obtain rfl := Option.some.inj h
        refine ⟨rfl, rfl, rfl, sortEntries_ascending hnodup, fun e => ?_⟩
        rw [mem_sortEntries, List.mem_iff_getElem, ← hk]
        constructor
        · rintro ⟨j, hj, rfl⟩
          exact ⟨j, hj, hspells j hj⟩
        · rintro ⟨j, hj, he⟩
          exact ⟨j, hj, spells_inj (hspells j hj) he⟩
      · cases h

/-! ## The payload -/

/-- The wait limit a CLAIM's payload carries, if bit 1 of its flags says that one follows (R161). -/
def claimLimit (p : List Byte) : Option Nat :=
  if (p.getD 1 0#8).getLsbD 1 then some (256 * (p.getD 2 0#8).toNat + (p.getD 3 0#8).toNat) else none

/-- The bytes of a CLAIM's payload after its line count (R161). -/
def claimTail (p : List Byte) : List Byte := p.drop (claimHead p)

/-- Byte `m` after the line count is byte `m` after the head of the payload. -/
@[simp] theorem getD_claimTail (p : List Byte) (m : Nat) : (claimTail p).getD m 0#8 = p.getD (claimHead p + m) 0#8 := by
  simp [claimTail, List.getD_eq_getElem?_getD]

/-- A number sent in two bytes, high byte first (R161). -/
theorem toNat_u16Of (hi lo : Byte) : (u16Of hi lo).toNat = 256 * hi.toNat + lo.toNat := by
  rw [u16Of, BitVec.toNat_append, ← Nat.shiftLeft_add_eq_or_of_lt lo.isLt, Nat.shiftLeft_eq, Nat.mul_comm]

/-- The wait limit is present and 0 exactly when a limit follows and both its bytes are 0. -/
theorem claimLimit_eq_zero (p : List Byte) :
    claimLimit p = some 0 ↔ (p.getD 1 0#8).getLsbD 1 = true ∧ p.getD 2 0#8 = 0#8 ∧ p.getD 3 0#8 = 0#8 := by
  unfold claimLimit
  split
  · rename_i hbit
    rw [Option.some.injEq, ← BitVec.toNat_inj (x := p.getD 2 0#8), ← BitVec.toNat_inj (x := p.getD 3 0#8)]
    simp only [hbit, true_and, BitVec.toNat_ofNat]
    omega
  · rename_i hbit
    exact iff_of_false (by simp) fun h => hbit h.1

/-- A CLAIM's payload is read by its fixed fields, where it is long enough to hold them (R161). -/
theorem claimArgs_eq (p : List Byte) :
    claimArgs p =
      if p.length < claimHead p then none
      else claimFields (p.getD 0 0#8) ((p.getD 1 0#8).getLsbD 0) (claimLimit p) (p.getD (claimHead p - 1) 0#8) (claimTail p) := by
  match p with
  | [] | [_] => simp [claimArgs, claimHead]
  | t :: fl :: rest =>
    cases hbit : fl.getLsbD 1 with
    | false =>
      match rest with
      | [] => simp [claimArgs, claimHead, hbit, -BitVec.getLsbD_eq_getElem]
      | k :: es => simp [claimArgs, claimHead, claimLimit, claimTail, hbit, -BitVec.getLsbD_eq_getElem]
    | true =>
      match rest with
      | [] | [_] | [_, _] => simp [claimArgs, claimHead, hbit, -BitVec.getLsbD_eq_getElem]
      | hi :: lo :: k :: es =>
        simp [claimArgs, claimHead, claimLimit, claimTail, hbit, toNat_u16Of, -BitVec.getLsbD_eq_getElem]

/-- The payload of a CLAIM is refused exactly in the cases of R16. -/
theorem claimArgs_eq_none (p : List Byte) : claimArgs p = none ↔ claimMalformed p := by
  rw [claimArgs_eq]
  split
  · rename_i hshort
    simp only [true_iff]
    exact .inl hshort
  · rename_i hlong
    have hlen : (claimTail p).length = 2 * claimCount p ↔ p.length = claimHead p + 2 * claimCount p := by
      rw [claimTail, List.length_drop]; omega
    have hcount : (p.getD (claimHead p - 1) 0#8).toNat = claimCount p := rfl
    simp only [claimMalformed, claimFields_eq_none, claimLimit_eq_zero, failsEntry, misspelt, getD_claimTail, hcount, ne_eq,
      hlen, hlong, false_or, or_assoc, Nat.add_assoc]

/-- What the payload of a CLAIM is read as, where it is not refused (R3, R161). -/
theorem claimArgs_eq_some {p : List Byte} {a : ClaimArgs} (h : claimArgs p = some a) :
    a.ticket = p.getD 0 0#8 ∧ a.preempt = (p.getD 1 0#8).getLsbD 0 ∧ a.limit = claimLimit p
      ∧ a.entries.Pairwise (fun x y => x.line < y.line)
      ∧ ∀ e, e ∈ a.entries ↔ ∃ j, j < claimCount p ∧ spells (claimTail p) j e := by
  rw [claimArgs_eq] at h
  split at h
  · cases h
  · exact claimFields_eq_some h

/-! ## The command -/

/-- The meaning of CLAIM. -/
theorem exec_claim (dt : Nat) (s : State) : exec (.claim dt) s = execClaim dt s := rfl

/-- A CLAIM whose payload is malformed is answered BAD_ARGUMENT, and nothing else changes (R16). -/
theorem exec_claim_of_malformed {s : State} {n : HostId} {q : Request} (dt : Nat) (htakes : s.takes .claim n q)
    (hbad : claimMalformed q.payload) :
    ∃ t, exec (.claim dt) s = .next t ∧ onlyAnswers s t dt .claim n q .badArgument [] := by
  have hrefused : handleClaim (s.turn dt .claim n) n q = (s.turn dt .claim n, bare .badArgument) := by
    rw [handleClaim, (claimArgs_eq_none _).mpr hbad]
  refine ⟨(s.turn dt .claim n).reply n q (bare .badArgument), ?_, s.onlyAnswers_turn_reply dt .claim n q _⟩
  rw [exec_claim, execClaim, State.takeChosen_of_takes htakes, hrefused]

/-- Settles O25: the payload is read by its fixed fields, then pair by pair. -/
theorem claimPayloadsRead : Obligations.ClaimPayloadsRead := by
  unfold Obligations.ClaimPayloadsRead
  intro p s dt n q
  refine ⟨claimArgs_eq_none p, fun a ha => ?_, exec_claim_of_malformed dt⟩
  obtain ⟨hticket, hpreempt, hlimit, hascending, hentries⟩ := claimArgs_eq_some ha
  refine ⟨hticket, hpreempt, hlimit, hascending, fun l st => ?_⟩
  simpa only [spells, getD_claimTail, Nat.add_assoc] using hentries ⟨l, st⟩

end Sys2Proof.Machine
end

section
/-! SUPPORT. What leaves the claim table as it is: operations, transactions and the handlings of requests that touch no slot. -/

namespace Sys2Proof.Machine

/-! ## Shared operations -/

/-- A list of operations that each leave the table leaves it. -/
theorem foldl_slots {α : Type} (f : State → α → State) (h : ∀ s a, (f s a).slots = s.slots) (l : List α) (s : State) :
    (l.foldl f s).slots = s.slots := by
  induction l generalizing s with
  | nil => rfl
  | cons a l ih => rw [List.foldl_cons, ih, h]

/-- An operation that leaves the table leaves it for each host of a set. -/
theorem State.forHosts_slots (s : State) (w : HostSet) (f : State → HostId → State)
    (h : ∀ t n, (f t n).slots = t.slots) : (s.forHosts w f).slots = s.slots :=
  State.forHosts_induct (fun t => t.slots = s.slots) s w f rfl fun t n _ ht => (h t n).trans ht

/-- A flag set is an edit of a board. -/
@[simp] theorem State.flag_slots (s : State) (h : HostId) (f : SessionFlags → SessionFlags) :
    (s.flag h f).slots = s.slots := rfl

/-- A refresh moves a deadline of a session (R93). -/
@[simp] theorem State.refresh_slots (s : State) (h : HostId) : (s.refresh h).slots = s.slots := by
  rw [State.refresh_eq, State.putSession_slots]

/-! ## The vote -/

/-- The completion test frees and grants nothing (R135). -/
@[simp] theorem State.completionTest_slots (s : State) : s.completionTest.slots = s.slots := by
  rw [State.completionTest_frame]

/-- The report of a host that joins (R135). -/
@[simp] theorem State.hostJoined_slots (s : State) (h : HostId) : (s.hostJoined h).slots = s.slots := by
  unfold State.hostJoined
  split <;> simp [State.postVoteOpen]

/-- The report of a host that leaves (R135). -/
@[simp] theorem State.hostLeft_slots (s : State) (h : HostId) : (s.hostLeft h).slots = s.slots := by
  unfold State.hostLeft
  split <;> simp

/-- The report of a host that restarts (R135). -/
@[simp] theorem State.hostRestarted_slots (s : State) (h : HostId) : (s.hostRestarted h).slots = s.slots := by
  unfold State.hostRestarted
  split <;> simp [State.postVoteOpen]

/-- The start of a vote (R134). -/
@[simp] theorem State.startVote_slots (s : State) (n : HostId) : (s.startVote n).slots = s.slots := by
  rw [State.startVote, State.completionTest_slots, State.forHosts_slots _ _ State.postVoteOpen fun _ _ => rfl,
    State.setVoted_slots]

/-- A vote cast while COMMITTED (R134). -/
@[simp] theorem State.reopenVote_slots (s : State) (n : HostId) : (s.reopenVote n).slots = s.slots := by
  unfold State.reopenVote State.countVote
  split
  · split <;> simp
  · simp

/-! ## Transactions -/

/-- The judgement of a request handed on (R92). -/
@[simp] theorem State.judge_slots (s : State) (n : HostId) (f : Frame) (k : Kind) : (s.judge n f k).slots = s.slots := by
  unfold State.judge
  split
  · simp
  · split <;> simp

/-- A well-formed frame received (R155, R156). -/
@[simp] theorem State.acceptFrame_slots (s : State) (n : HostId) (f : Frame) : (s.acceptFrame n f).slots = s.slots := by
  unfold State.acceptFrame
  split
  · split
    · simp
    · split <;> simp
  · split <;> simp

/-- A write transaction (R151, R153). -/
@[simp] theorem State.write_slots (s : State) (n : HostId) (bits : List Bool) : (s.write n bits).slots = s.slots := by
  have frameEnd (t : State) : (t.frameEnd n bits).slots = t.slots := by
    unfold State.frameEnd
    split <;> simp
  unfold State.write
  split <;> simp [frameEnd]

/-- A transaction, whatever its opener (R150). -/
@[simp] theorem State.transact_slots (s : State) (n : HostId) (early : Bool) (bits : List Bool) :
    (s.transact n early bits).slots = s.slots := by
  unfold State.transact
  split
  · split
    · split
      · exact s.write_slots n _
      · split <;> rfl
    · rfl
  · rfl

/-! ## Time -/

/-- A sampling tick changes cells and boards (R75). -/
@[simp] theorem State.tick_slots (s : State) (levels : LineSet) : (s.tick levels).slots = s.slots := by
  rw [State.tick, State.mapCells_slots, foldl_slots]
  exact fun t h => t.editBoard_slots h _

/-! ## Handlings of requests -/

/-- STATUS reports (R103). -/
@[simp] theorem handleStatus_slots (s : State) (n : HostId) (q : Request) (c : Session) :
    (handleStatus s n q c).1.slots = s.slots := by
  unfold handleStatus
  split <;> rfl

/-- HEARTBEAT moves the deadline (R98). -/
@[simp] theorem handleHeartbeat_slots (s : State) (n : HostId) (q : Request) (c : Session) :
    (handleHeartbeat s n q c).1.slots = s.slots := by
  unfold handleHeartbeat
  split
  · rfl
  · split <;> rfl

/-- QUERY CLAIM reports (R25). -/
@[simp] theorem handleQueryClaim_slots (s : State) (n : HostId) (q : Request) :
    (handleQueryClaim s n q).1.slots = s.slots := by
  unfold handleQueryClaim
  split
  · rfl
  · split <;> rfl

/-- CLEAR FAULT unparks cells (R86). -/
@[simp] theorem handleClearFault_slots (s : State) (n : HostId) (q : Request) :
    (handleClearFault s n q).1.slots = s.slots := by
  unfold handleClearFault
  split
  · rfl
  · split
    · rfl
    · split
      · split <;> rfl
      · rfl

/-- READ LINES reports (R87). -/
@[simp] theorem handleReadLines_slots (s : State) (n : HostId) (q : Request) :
    (handleReadLines s n q).1.slots = s.slots := by
  unfold handleReadLines
  split <;> rfl

/-- QUERY LINE reports (R88). -/
@[simp] theorem handleQueryLine_slots (s : State) (n : HostId) (q : Request) :
    (handleQueryLine s n q).1.slots = s.slots := by
  unfold handleQueryLine
  split
  · rfl
  · split <;> rfl

/-- FETCH NOTICES clears a board (R117). -/
@[simp] theorem handleFetch_slots (s : State) (n : HostId) (q : Request) : (handleFetch s n q).1.slots = s.slots := by
  unfold handleFetch
  split <;> rfl

/-- READ PROFILE reports (R131). -/
@[simp] theorem handleReadProfile_slots (s : State) (n : HostId) (q : Request) :
    (handleReadProfile s n q).1.slots = s.slots := by
  unfold handleReadProfile
  split <;> rfl

/-- A profile edit is refused with nothing changed, or made (R124). -/
theorem profileEdit_cases {α : Type} (s : State) (n : HostId) (args : Option α) (f : α → State × Answer) :
    (∃ st, profileEdit s n args f = (s, bare st)) ∨ ∃ a, args = some a ∧ profileEdit s n args f = f a := by
  unfold profileEdit
  split
  · split
    · cases args with
      | some a => exact .inr ⟨a, rfl, rfl⟩
      | none => exact .inl ⟨_, rfl⟩
    · exact .inl ⟨_, rfl⟩
  · exact .inl ⟨_, rfl⟩

/-- A profile edit leaves the table where the edit made does. -/
theorem profileEdit_slots {α : Type} (s : State) (n : HostId) (args : Option α) (f : α → State × Answer)
    (h : ∀ a, (f a).1.slots = s.slots) : (profileEdit s n args f).1.slots = s.slots := by
  rcases profileEdit_cases s n args f with ⟨st, hst⟩ | ⟨a, _, ha⟩
  · rw [hst]
  · rw [ha, h]

/-- SET BOND changes the profile (R128). -/
@[simp] theorem handleSetBond_slots (s : State) (n : HostId) (q : Request) : (handleSetBond s n q).1.slots = s.slots :=
  profileEdit_slots _ _ _ _ fun a => by split <;> rfl

/-- SET HOST PROFILE changes the profile (R130). -/
@[simp] theorem handleSetHostProfile_slots (s : State) (n : HostId) (q : Request) :
    (handleSetHostProfile s n q).1.slots = s.slots :=
  profileEdit_slots _ _ _ _ fun a => by
    split
    · rfl
    · split <;> rfl

/-- SET TIMING changes the profile (R147). -/
@[simp] theorem handleSetTiming_slots (s : State) (n : HostId) (q : Request) :
    (handleSetTiming s n q).1.slots = s.slots :=
  profileEdit_slots _ _ _ _ fun _ => rfl

/-- COMMIT PROFILE changes the profile state (R132). -/
@[simp] theorem handleCommitProfile_slots (s : State) (n : HostId) (q : Request) :
    (handleCommitProfile s n q).1.slots = s.slots :=
  profileEdit_slots _ _ _ _ fun _ => rfl

/-- REOPEN VOTE changes the vote (R134). -/
@[simp] theorem handleReopenVote_slots (s : State) (n : HostId) (q : Request) :
    (handleReopenVote s n q).1.slots = s.slots := by
  unfold handleReopenVote
  split
  · split
    · exact s.reopenVote_slots n
    · rfl
  · rfl

end Sys2Proof.Machine
end

section
/-! SUPPORT. The grant walk (R34 to R36): a grant puts a live-holding record where a WAITING one stood, which makes no other record
grantable; so a record tested and passed over stays ungrantable, and one walk is enough. -/

namespace Sys2Proof.Machine

/-! ## Entry numbers -/

/-- The next entry number is greater than that of every record (R14). -/
theorem entry_lt_nextEntry {t : Slots} {i : SlotId} {r : Record} (h : r ∈ t.get i) : r.entry < nextEntry t := by
  have hmem : r.entry ∈ 0 :: (recordsOf t).map fun x => x.2.entry :=
    List.mem_cons_of_mem _ (List.mem_map.mpr ⟨(i, r), (mem_recordsOf t i r).mpr h, rfl⟩)
  have hle := List.le_max?_getD_of_mem (k := 0) hmem
  rw [List.max?_cons'] at hle
  exact Nat.lt_of_le_of_lt hle (by simp [nextEntry])

/-- Distinct entry numbers stay distinct where no record is made or changed (R14). -/
theorem State.entriesDistinct_of_subset {s t : State} (hs : s.entriesDistinct)
    (h : ∀ i, ∀ r ∈ t.slots.get i, r ∈ s.slots.get i) : t.entriesDistinct :=
  fun i r hr j w hw => hs i r (h i r hr) j w (h j w hw)

/-- A record put in a slot under a number no other slot's record has keeps entry numbers distinct (R14). -/
theorem State.entriesDistinct_set {s t : State} {i : SlotId} {r : Record} (hs : s.entriesDistinct)
    (ht : t.slots = s.slots.set i (some r)) (hr : ∀ j, j ≠ i → ∀ w ∈ s.slots.get j, w.entry ≠ r.entry) :
    t.entriesDistinct := by
  intro j a ha k b hb hab
  rw [ht, Table.get_set] at ha hb
  split at ha <;> split at hb
  · simp_all
  · rename_i hj hk
    obtain rfl : r = a := by simpa using ha
    exact absurd hab.symm (hr k hk b hb)
  · rename_i hj hk
    obtain rfl : r = b := by simpa using hb
    exact absurd hab (hr j hj a ha)
  · exact hs j a ha k b hb hab

/-! ## Grantable records -/

/-- Slot `i` holds a WAITING record that is grantable (R31). -/
def State.grantableAt (s : State) (i : SlotId) : Prop :=
  ∃ r ∈ s.slots.get i, r.state = .waiting ∧ s.canGrant i r

/-- No WAITING record is grantable exactly when no slot holds a grantable one (R36). -/
theorem State.noneGrantable_iff (s : State) : s.noneGrantable ↔ ∀ i, ¬ s.grantableAt i :=
  ⟨fun h i ⟨r, hr, hw, hg⟩ => h i r hr hw hg, fun h i r hr hw hg => h i ⟨r, hr, hw, hg⟩⟩

/-- From `s` to `t`, each slot stands exactly as it was, or has a live-holding record that names every line its record in `s`
named. -/
def holdsMore (s t : State) : Prop :=
  ∀ i, t.slots.get i = s.slots.get i
    ∨ ∃ r' ∈ t.slots.get i, r'.state ≠ .waiting ∧ ∀ r ∈ s.slots.get i, ∀ l, r.names l = true → r'.names l = true

/-- A live-holding record put in a slot, in the place of one that named no other line or of none. -/
theorem holdsMore_set {s t : State} {i : SlotId} {r' : Record} (ht : t.slots = s.slots.set i (some r'))
    (hlive : r'.state ≠ .waiting) (hnames : ∀ r ∈ s.slots.get i, ∀ l, r.names l = true → r'.names l = true) :
    holdsMore s t := by
  intro j
  rw [ht, Table.get_set]
  split
  · rename_i hj
    subst hj
    exact .inr ⟨r', rfl, hlive, hnames⟩
  · exact .inl rfl

/-- More live-holding records make no record grantable: each line is held that was, and each WAITING record that stood before
another stands there still or holds the line (R31). -/
theorem holdsMore.grantableAt {s t : State} (h : holdsMore s t) {i : SlotId} (hi : t.grantableAt i) : s.grantableAt i := by
  obtain ⟨r, hr, hwaiting, hgrant⟩ := hi
  have stands : s.slots.get i = t.slots.get i := by
    rcases h i with heq | ⟨r', hr', hlive, _⟩
    · exact heq.symm
    · cases Option.mem_unique hr hr'
      exact absurd hwaiting hlive
  refine ⟨r, stands ▸ hr, hwaiting, fun l hl => ⟨?_, ?_⟩⟩
  · rintro ⟨j, w, hw, hlive, hwl⟩
    refine (hgrant l hl).1 ?_
    rcases h j with heq | ⟨w', hw', hlive', hnames⟩
    · exact ⟨j, w, heq ▸ hw, hlive, hwl⟩
    · exact ⟨j, w', hw', hlive', hnames w hw l hwl⟩
  · intro j w hw hji hwwaiting hwl
    rcases h j with heq | ⟨w', hw', hlive', hnames⟩
    · exact (hgrant l hl).2 j w (heq ▸ hw) hji hwwaiting hwl
    · exact absurd ⟨j, w', hw', hlive', hnames w hw l hwl⟩ (hgrant l hl).1

/-- With distinct entry numbers, a WAITING record that no WAITING record of its line stands before heads the line's queue
(R29). -/
theorem State.headOf_of_first {s : State} (hs : s.entriesDistinct) {i : SlotId} {r : Record} {l : LineId}
    (hr : r ∈ s.slots.get i) (hwaiting : r.state = .waiting) (hl : r.names l = true)
    (hfirst : ∀ j, ∀ w ∈ s.slots.get j, j ≠ i → w.state = .waiting → w.names l = true → ¬ w.before r) :
    headOf s.slots l = some i := by
  have hmem : (i, r) ∈ queueOf s.slots l := List.mem_filter.mpr ⟨(mem_waitingOrder _ i r).mpr ⟨hr, hwaiting⟩, hl⟩
  have hordered : (queueOf s.slots l).Pairwise fun x y => ¬ y.2.before x.2 := (waitingOrder_ordered s.slots).filter _
  unfold headOf
  cases hq : queueOf s.slots l with
  | nil => simp [hq] at hmem
  | cons x xs =>
    obtain ⟨j, w⟩ := x
    have hhead : (j, w) ∈ queueOf s.slots l := by simp [hq]
    obtain ⟨hwo, hwl⟩ := List.mem_filter.mp hhead
    obtain ⟨hw, hwwaiting⟩ := (mem_waitingOrder _ j w).mp hwo
    by_contra hne
    have hji : j ≠ i := by simpa using hne
    have hafter : ¬ r.before w := by
      rw [hq] at hmem hordered
      rcases List.mem_cons.mp hmem with heq | htail
      · exact absurd (congrArg Prod.fst heq).symm hji
      · exact (List.pairwise_cons.mp hordered).1 _ htail
    have hbefore : ¬ w.before r := hfirst j w hw hji hwwaiting hwl
    have hentry : w.entry ≠ r.entry := fun he => hji (hs j w hw i r hr he)
    simp only [Record.before] at hafter hbefore
    omega

/-- With distinct entry numbers, the walk's test finds the records that are grantable (R31). -/
theorem State.grantable_of_canGrant {s : State} (hs : s.entriesDistinct) {i : SlotId} {r : Record}
    (hr : r ∈ s.slots.get i) (hwaiting : r.state = .waiting) (hgrant : s.canGrant i r) :
    grantable s.slots i r = true := by
  rw [grantable, List.all_eq_true]
  intro e he
  have hl : r.names e.line = true := (r.names_iff _).mpr ⟨e, he, rfl⟩
  obtain ⟨hfree, hfirst⟩ := hgrant e.line hl
  have hnone : holderOf s.slots e.line = none := by
    rw [← Option.not_isSome_iff_eq_none, State.holderOf_isSome]
    exact hfree
  simp [hnone, State.headOf_of_first hs hr hwaiting hl hfirst]

/-! ## The walk -/

/-- A granted record is live-holding (R35). -/
theorem Record.granted_live (r : Record) (now settle : Nat) : (r.granted now settle).state ≠ .waiting := by
  unfold Record.granted Record.inHeld
  split <;> simp

/-- A granted record keeps its entry number (R14, R35). -/
@[simp] theorem Record.granted_entry (r : Record) (now settle : Nat) : (r.granted now settle).entry = r.entry := by
  unfold Record.granted
  split <;> rfl

/-- A granted record names the lines it named (R35). -/
@[simp] theorem Record.granted_names (r : Record) (now settle : Nat) (l : LineId) :
    (r.granted now settle).names l = r.names l := by
  unfold Record.granted
  split <;> rfl

/-- A grant of a walk puts the granted record in its slot (R35). -/
theorem State.grant_slots (s : State) (i : SlotId) (r : Record) :
    (s.grant i r).slots = s.slots.set i (some (r.granted s.now s.profile.settle)) := by
  unfold State.grant
  split
  · rw [State.post_slots, State.grantInto_slots]
  · exact s.grantInto_slots i r

/-- A grant puts a live-holding record in the place of the WAITING one. -/
theorem holdsMore_grant {s : State} {i : SlotId} {r : Record} (hr : r ∈ s.slots.get i) : holdsMore s (s.grant i r) :=
  holdsMore_set (s.grant_slots i r) (r.granted_live _ _) fun w hw l hl => by
    rw [Option.mem_unique hw hr] at hl
    rwa [Record.granted_names]

/-- A step of the walk puts live-holding records in the place of WAITING ones. -/
theorem holdsMore_tryGrant (s : State) (i : SlotId) : holdsMore s (s.tryGrant i) := by
  rcases s.tryGrant_cases i with h | ⟨r, hr, _, _, h⟩ <;> rw [h]
  · exact fun _ => .inl rfl
  · exact holdsMore_grant hr

/-- A step of the walk keeps entry numbers distinct (R14). -/
theorem State.entriesDistinct_tryGrant {s : State} (hs : s.entriesDistinct) (i : SlotId) :
    (s.tryGrant i).entriesDistinct := by
  rcases s.tryGrant_cases i with h | ⟨r, hr, _, _, h⟩ <;> rw [h]
  · exact hs
  · refine State.entriesDistinct_set hs (s.grant_slots i r) fun j hj w hw he => hj ?_
    exact hs j w hw i r hr (he.trans (r.granted_entry _ _))

/-- A step of the walk leaves no grantable record in the slot it tests (R34). -/
theorem State.not_grantableAt_tryGrant {s : State} (hs : s.entriesDistinct) (i : SlotId) :
    ¬ (s.tryGrant i).grantableAt i := by
  intro hi
  obtain ⟨r, hr, hwaiting, hgrant⟩ := (holdsMore_tryGrant s i).grantableAt hi
  have hgranted : s.tryGrant i = s.grant i r := by
    simp [State.tryGrant, Option.mem_def.mp hr, hwaiting, State.grantable_of_canGrant hs hr hwaiting hgrant]
  obtain ⟨r', hr', hwaiting', _⟩ := hi
  rw [hgranted, State.grant_slots, Table.get_set_self] at hr'
  cases hr'
  exact r.granted_live _ _ hwaiting'

/-- Steps of the walk leave entry numbers distinct; and a slot that holds a grantable record after them held one before them and was
not tested. -/
theorem State.foldl_tryGrant (l : List SlotId) {s : State} (hs : s.entriesDistinct) :
    (l.foldl State.tryGrant s).entriesDistinct
      ∧ ∀ i, (l.foldl State.tryGrant s).grantableAt i → s.grantableAt i ∧ i ∉ l := by
  induction l generalizing s with
  | nil => exact ⟨hs, fun i hi => ⟨hi, List.not_mem_nil⟩⟩
  | cons j l ih =>
    obtain ⟨hdistinct, hleft⟩ := ih (State.entriesDistinct_tryGrant hs j)
    refine ⟨hdistinct, fun i hi => ?_⟩
    obtain ⟨hnext, hl⟩ := hleft i hi
    refine ⟨(holdsMore_tryGrant s j).grantableAt hnext, fun hmem => ?_⟩
    rcases List.mem_cons.mp hmem with rfl | hmem
    · exact State.not_grantableAt_tryGrant hs i hnext
    · exact hl hmem

/-- A grantable record stands in the waiting order the walk goes over (R34). -/
theorem State.mem_walk_of_grantableAt {s : State} {i : SlotId} (h : s.grantableAt i) :
    i ∈ (waitingOrder s.slots).map fun x => x.1 := by
  obtain ⟨r, hr, hwaiting, _⟩ := h
  exact List.mem_map.mpr ⟨(i, r), (mem_waitingOrder _ i r).mpr ⟨hr, hwaiting⟩, rfl⟩

/-- A grant evaluation keeps entry numbers distinct (R14). -/
theorem State.entriesDistinct_grantWalk {s : State} (hs : s.entriesDistinct) : s.grantWalk.entriesDistinct :=
  (State.foldl_tryGrant _ hs).1

/-- One walk leaves no WAITING record grantable (R36). -/
theorem State.noneGrantable_grantWalk {s : State} (hs : s.entriesDistinct) : s.grantWalk.noneGrantable :=
  (State.noneGrantable_iff _).mpr fun i hi =>
    have ⟨hgrantable, huntested⟩ := (State.foldl_tryGrant _ hs).2 i hi
    huntested (State.mem_walk_of_grantableAt hgrantable)

end Sys2Proof.Machine
end

section
/-! SUPPORT. Every step keeps the wait queues right: entry numbers distinct (R14) and no WAITING record grantable (R36). -/

namespace Sys2Proof.Machine

/-- R14, R36: entry numbers are distinct, and no WAITING record is grantable. -/
def State.queuesRight (s : State) : Prop :=
  s.entriesDistinct ∧ s.noneGrantable

/-! ## The table's operations -/

/-- What leaves the table keeps the queues right. -/
theorem State.queuesRight.of_slots {s t : State} (h : s.queuesRight) (ht : t.slots = s.slots) : t.queuesRight := by
  unfold State.queuesRight State.entriesDistinct State.noneGrantable State.canGrant State.lineHeld at *
  simpa only [ht] using h

/-- More live-holding records keep the queues right, where entry numbers stay distinct. -/
theorem State.queuesRight.of_holdsMore {s t : State} (h : s.queuesRight) (hmore : holdsMore s t)
    (ht : t.entriesDistinct) : t.queuesRight :=
  ⟨ht, (State.noneGrantable_iff t).mpr fun i hi => (State.noneGrantable_iff s).mp h.2 i (hmore.grantableAt hi)⟩

/-- A live-holding record put in the place of a record of the same entry number that named no other line keeps the queues
right. -/
theorem State.queuesRight.replace {s t : State} (h : s.queuesRight) {i : SlotId} {r r' : Record} (hr : r ∈ s.slots.get i)
    (ht : t.slots = s.slots.set i (some r')) (hlive : r'.state ≠ .waiting) (hentry : r'.entry = r.entry)
    (hnames : ∀ l, r'.names l = r.names l) : t.queuesRight := by
  refine h.of_holdsMore (holdsMore_set ht hlive fun w hw l hl => ?_)
    (State.entriesDistinct_set h.1 ht fun j hj w hw he => hj ?_)
  · rwa [hnames, ← Option.mem_unique hw hr]
  · exact h.1 j w hw i r hr (he.trans hentry)

/-- A test of eligibility evaluation passes a holder between HELD and YIELDING (R51). -/
theorem State.queuesRight.applyDemand {s : State} (h : s.queuesRight) (i : SlotId) : (s.applyDemand i).queuesRight := by
  rcases s.applyDemand_cases i with heq | ⟨r, hr, ⟨_, _, heq⟩ | ⟨_, _, heq⟩⟩ <;> rw [heq]
  · exact h
  · exact h.replace (r' := r.asYielding s.now s.profile.yieldWindow) hr rfl (by simp [Record.asYielding]) rfl fun _ => rfl
  · exact h.replace (r' := r.asHeld) hr rfl (by simp [Record.asHeld]) rfl fun _ => rfl

/-- An eligibility evaluation keeps the queues right: it only passes holders between HELD and YIELDING (R51). -/
theorem State.queuesRight.eligibility {s : State} (h : s.queuesRight) : s.eligibility.queuesRight := by
  have foldl (l : List SlotId) (t : State) (ht : t.queuesRight) : (l.foldl State.applyDemand t).queuesRight := by
    induction l generalizing t with
    | nil => exact ht
    | cons i l ih => exact ih _ (ht.applyDemand i)
  exact foldl _ _ (h.of_slots rfl)

/-- Both evaluations leave the queues right, from every table with distinct entry numbers (R36, R37). -/
theorem State.queuesRight_evaluate {s : State} (hs : s.entriesDistinct) : s.evaluate.queuesRight :=
  State.queuesRight.eligibility ⟨State.entriesDistinct_grantWalk hs, State.noneGrantable_grantWalk hs⟩

/-- Freeings, and the evaluations after them, leave the queues right (R7, R36). -/
theorem State.queuesRight_freeAll {s : State} (hs : s.entriesDistinct) (l : List SlotId) (cause : FreeCause) :
    (s.freeAll l cause).queuesRight := by
  refine State.queuesRight_evaluate (State.entriesDistinct_of_subset hs fun i r hr => ?_)
  rw [State.freeEach_slots] at hr
  split at hr
  · cases hr
  · exact hr

/-! ## CLAIM -/

/-- A claim admitted is granted at once, refused, or made to wait (R21): each leaves the queues right. -/
theorem State.queuesRight.admitClaim {s : State} (h : s.queuesRight) (n : HostId) (a : ClaimArgs) {i : SlotId}
    (hfree : s.slots.get i = none) : (s.admitClaim n a i).1.queuesRight := by
  have fresh (j : SlotId) (_ : j ≠ i) (w : Record) (hw : w ∈ s.slots.get j) : w.entry ≠ (newRecord s n a).entry :=
    (entry_lt_nextEntry hw).ne
  unfold State.admitClaim
  split
  · refine (h.of_holdsMore (holdsMore_set (s.grantInto_slots i _) (Record.granted_live _ _ _) ?_) ?_).eligibility
    · simp [hfree]
    · exact State.entriesDistinct_set h.1 (s.grantInto_slots i _) (by simpa using fresh)
  · split
    · exact h
    · dsimp only
      exact State.queuesRight_evaluate (State.entriesDistinct_set h.1 (s.putRecord_slots i _) fresh)

/-- The handling of CLAIM (R15, R21). -/
theorem State.queuesRight.handleClaim {s : State} (h : s.queuesRight) (n : HostId) (q : Request) :
    (handleClaim s n q).1.queuesRight := by
  unfold Machine.handleClaim
  split
  · exact h
  · split
    · exact h
    · rename_i hi
      exact h.admitClaim n _ (State.lowestFree_of_freeSlot hi).1
    · exact h

/-- The handling of RELEASE (R23). -/
theorem State.queuesRight.handleRelease {s : State} (h : s.queuesRight) (n : HostId) (q : Request) :
    (handleRelease s n q).1.queuesRight := by
  unfold Machine.handleRelease
  split
  · exact h
  · split
    · exact h
    · dsimp only
      exact State.queuesRight_freeAll h.1 _ _

/-! ## The deadlines of records -/

/-- A settle end brings a record from SETTLING to HELD, or through HELD to YIELDING (R45, R54). -/
theorem State.queuesRight.settleEnd {s : State} (h : s.queuesRight) {i : SlotId} {r : Record} (hr : r ∈ s.slots.get i) :
    (s.settleEnd i r).queuesRight := by
  unfold State.settleEnd
  split
  · exact h.replace (r' := r.asHeld.asYielding s.now s.profile.yieldWindow) hr (s.slots.set_set i _ _)
      (by simp [Record.asYielding]) rfl fun _ => rfl
  · exact State.queuesRight.eligibility (h.replace (r' := r.asHeld) hr rfl (by simp [Record.asHeld]) rfl fun _ => rfl)

/-- SETTLE_END (R45). -/
theorem State.queuesRight.execSettleEnd {s : State} (h : s.queuesRight) (i : SlotId) :
    ∃ t, execSettleEnd i s = .next t ∧ t.queuesRight := by
  refine ⟨_, rfl, ?_⟩
  split
  · rename_i hr
    split
    · exact (h.of_slots (s.reach_slots _)).settleEnd hr
    · exact h
  · exact h

/-- YIELD_END (R58). -/
theorem State.queuesRight.execYieldEnd {s : State} (h : s.queuesRight) (i : SlotId) :
    ∃ t, execYieldEnd i s = .next t ∧ t.queuesRight := by
  refine ⟨_, rfl, ?_⟩
  split
  · split
    · exact State.queuesRight_freeAll (h.of_slots (s.reach_slots _)).1 _ _
    · exact h
  · exact h

/-- WAIT_END (R41). -/
theorem State.queuesRight.execWaitEnd {s : State} (h : s.queuesRight) (i : SlotId) :
    ∃ t, execWaitEnd i s = .next t ∧ t.queuesRight := by
  refine ⟨_, rfl, ?_⟩
  split
  · split
    · exact State.queuesRight_freeAll (h.of_slots (s.reach_slots _)).1 _ _
    · exact h
  · exact h

/-! ## Edits of a holder's settings -/

/-- An edit of settings names the lines it found (R84, R85). -/
theorem names_editEntries (r : Record) (f : Nat → Setting → Setting) (l : LineId) :
    { r with lines := editEntries f r.lines }.names l = r.names l := by
  have hlines : (editEntries f r.lines).map (fun e => e.line) = r.lines.map fun e => e.line := by
    calc
      (editEntries f r.lines).map (fun e => e.line) = r.lines.zipIdx.map ((fun e => e.line) ∘ Prod.fst) := List.map_map
      _ = r.lines.map fun e => e.line := by rw [← List.map_map, List.zipIdx_map_fst]
  have hany (es : List LineEntry) : (es.any fun e => e.line == l) = (es.map fun e => e.line).any fun m => m == l := by
    rw [List.any_map]; rfl
  rw [Record.names, Record.names, hany, hany, hlines]

/-- A HELD or YIELDING record is live-holding (R5). -/
theorem Record.live_of_presenting {r : Record} (h : r.presenting = true) : r.state ≠ .waiting := by
  intro hw
  simp [Record.presenting, hw] at h

/-- New settings for a HELD or YIELDING record (R69). -/
theorem State.queuesRight.resettle {s : State} (h : s.queuesRight) {i : SlotId} {r : Record} (hr : r ∈ s.slots.get i)
    (hp : r.presenting = true) (named : Nat → Bool) (f : Nat → Setting → Setting) :
    (s.resettle i r named f).queuesRight :=
  h.replace (r' := { r with lines := editEntries f r.lines }) hr rfl (Record.live_of_presenting hp) rfl
    (names_editEntries r f)

/-- SET LEVELS on a HELD or YIELDING record is refused, or gives it new settings (R84). -/
theorem State.queuesRight.applyLevels {s : State} (h : s.queuesRight) {i : SlotId} {r : Record} (hr : r ∈ s.slots.get i)
    (hp : r.presenting = true) (a : LevelArgs) : (s.applyLevels i r a).1.queuesRight := by
  unfold State.applyLevels
  split
  · exact h
  · split
    · exact h
    · exact h.resettle hr hp _ _

/-- The handling of SET LEVELS (R83, R84). -/
theorem State.queuesRight.handleSetLevels {s : State} (h : s.queuesRight) (n : HostId) (q : Request) :
    (handleSetLevels s n q).1.queuesRight := by
  unfold Machine.handleSetLevels
  split
  · exact h
  · split
    · exact h
    · rename_i hfound
      split
      · split
        · rename_i hp
          exact h.applyLevels (findTicket_some hfound).1 hp _
        · exact h
      · exact h

/-- The handling of RECONFIGURE (R83, R85). -/
theorem State.queuesRight.handleReconfigure {s : State} (h : s.queuesRight) (n : HostId) (q : Request) :
    (handleReconfigure s n q).1.queuesRight := by
  unfold Machine.handleReconfigure
  split
  · exact h
  · split
    · exact h
    · rename_i hfound
      split
      · exact h
      · split
        · rename_i hp
          exact (h.resettle (findTicket_some hfound).1 hp _ _).of_slots (State.editBoard_slots _ _ _)
        · exact h

/-! ## Sessions -/

/-- A freeing of every record of a host, and the evaluations after it (R9). -/
theorem State.queuesRight.freeHost {s : State} (h : s.queuesRight) (n : HostId) : (s.freeHost n).queuesRight :=
  State.queuesRight_freeAll h.1 _ _

/-- A session put in place touches no record. -/
theorem State.queuesRight.putSession {s : State} (h : s.queuesRight) (n : HostId) (c : Session) :
    (s.putSession n c).queuesRight :=
  h.of_slots (s.putSession_slots n c)

/-- An ATTACH from DETACHED or LAPSED touches no record (R95). -/
theorem State.queuesRight.beginSession {s : State} (h : s.queuesRight) (n : HostId) (p : Nat) :
    (s.beginSession n p).queuesRight :=
  h.of_slots (by simp [State.beginSession])

/-- A restart frees the old session's records (R96). -/
theorem State.queuesRight.restartSession {s : State} (h : s.queuesRight) (n : HostId) (p : Nat) :
    (s.restartSession n p).queuesRight :=
  (h.freeHost n).of_slots (by simp [State.restartSession])

/-- A DETACH from ATTACHED frees the host's records (R100). -/
theorem State.queuesRight.detachAttached {s : State} (h : s.queuesRight) (n : HostId) :
    (s.detachAttached n).queuesRight :=
  ((h.putSession n ((s.sessions.get n).ended .detached)).freeHost n).of_slots (by simp [State.detachAttached])

/-- A DETACH from LAPSED touches no record (R100). -/
theorem State.queuesRight.detachLapsed {s : State} (h : s.queuesRight) (n : HostId) : (s.detachLapsed n).queuesRight :=
  h.of_slots (by simp [State.detachLapsed])

/-- A lapse frees the host's records (R99). -/
theorem State.queuesRight.lapse {s : State} (h : s.queuesRight) (n : HostId) : (s.lapse n).queuesRight :=
  ((h.putSession n ((s.sessions.get n).ended .lapsed)).freeHost n).of_slots (by simp [State.lapse])

/-- The handling of ATTACH (R95, R96). -/
theorem State.queuesRight.handleAttach {s : State} (h : s.queuesRight) (n : HostId) (q : Request) (c : Session) :
    (handleAttach s n q c).1.queuesRight := by
  unfold Machine.handleAttach
  split
  · exact h
  · dsimp only
    split
    · exact h.restartSession n _
    · exact h.beginSession n _

/-- The handling of DETACH (R100). -/
theorem State.queuesRight.handleDetach {s : State} (h : s.queuesRight) (n : HostId) (q : Request) (c : Session) :
    (handleDetach s n q c).1.queuesRight := by
  unfold Machine.handleDetach
  split
  · dsimp only
    split
    · exact h.detachAttached n
    · exact h.detachLapsed n
  · exact h

/-- HEARTBEAT_EXPIRY (R99). -/
theorem State.queuesRight.execHeartbeatExpiry {s : State} (h : s.queuesRight) (n : HostId) :
    ∃ t, execHeartbeatExpiry n s = .next t ∧ t.queuesRight := by
  refine ⟨_, rfl, ?_⟩
  split
  · exact (h.of_slots (s.reach_slots _)).lapse n
  · exact h

/-! ## The Profile Unit -/

/-- The handling of SET LINE PROFILE: the WAITING records excluded are freed, if any (R126). -/
theorem State.queuesRight.handleSetLineProfile {s : State} (h : s.queuesRight) (n : HostId) (q : Request) :
    (handleSetLineProfile s n q).1.queuesRight := by
  unfold Machine.handleSetLineProfile
  rcases profileEdit_cases s n (lineProfileArgs q.payload) fun es =>
    (s.applyLineProfile es, { status := .ok, payload := [natByte (excluded s es).length] }) with ⟨st, hst⟩ | ⟨es, _, hes⟩
  · rw [hst]
    exact h
  · rw [hes]
    have hstored : ((s.storeLines es).tellRest es).queuesRight := h.of_slots rfl
    dsimp only [State.applyLineProfile]
    split
    · exact hstored
    · exact State.queuesRight_freeAll hstored.1 _ _

/-- CLEAR ALL frees every record (R137). -/
theorem State.queuesRight.clearAll {s : State} (h : s.queuesRight) (n : HostId) : (s.clearAll n).queuesRight := by
  have hlapsed : (s.endVote.forHosts (lapsedBy s n) fun t m => t.putSession m ((t.sessions.get m).ended .lapsed)).slots
      = s.slots :=
    State.forHosts_slots _ _ _ fun t m => t.putSession_slots m _
  exact (State.queuesRight_freeAll (h.of_slots hlapsed).1 _ _).of_slots
    (State.forHosts_slots _ _ _ fun t m => by rw [State.flag_slots, State.clearBoard_slots])

/-- The handling of CLEAR ALL (R137). -/
theorem State.queuesRight.handleClearAll {s : State} (h : s.queuesRight) (n : HostId) (q : Request) :
    (handleClearAll s n q).1.queuesRight := by
  unfold Machine.handleClearAll
  split
  · split
    · exact h.clearAll n
    · exact h
  · split <;> exact h

/-- VOTE_DEADLINE touches no record (R136). -/
theorem State.queuesRight.execVoteDeadline {s : State} (h : s.queuesRight) :
    ∃ t, execVoteDeadline s = .next t ∧ t.queuesRight := by
  refine ⟨_, rfl, ?_⟩
  split
  · exact h.of_slots (State.forHosts_slots _ _ _ fun t m => t.flag_slots m _)
  · exact h

/-! ## Taking a request -/

/-- A block that takes a request keeps the queues right where its handling does. -/
theorem State.queuesRight.take {s : State} (h : s.queuesRight) (n : HostId) (q : Request)
    {f : State → HostId → Request → State × Answer}
    (hf : ∀ t : State, t.queuesRight → ∀ n q, (f t n q).1.queuesRight) : (s.take n q f).queuesRight := by
  rcases s.take_cases n q f with ⟨st, _, heq⟩ | ⟨_, heq⟩ <;> rw [heq]
  · exact h.of_slots (State.reply_slots _ _ _ _)
  · exact (hf s h n q).of_slots (State.reply_slots _ _ _ _)

/-- A block with an arbiter keeps the queues right where its handling does. -/
theorem State.queuesRight.takeChosen {s : State} (h : s.queuesRight) (dt : Nat) (k : Kind)
    {f : State → HostId → Request → State × Answer}
    (hf : ∀ t : State, t.queuesRight → ∀ n q, (f t n q).1.queuesRight) : ((s.elapse dt).takeChosen k f).queuesRight := by
  rcases (s.elapse dt).takeChosen_cases k f with heq | ⟨n, q, _, heq⟩ <;> rw [heq]
  · exact h.of_slots rfl
  · exact State.queuesRight.take (h.of_slots (by simp)) n q hf

/-- A block with an arbiter keeps the queues right where its handling leaves the table. -/
theorem State.queuesRight.takeChosen_of_slots {s : State} (h : s.queuesRight) (dt : Nat) (k : Kind)
    {f : State → HostId → Request → State × Answer} (hf : ∀ t n q, (f t n q).1.slots = t.slots) :
    ((s.elapse dt).takeChosen k f).queuesRight :=
  h.takeChosen dt k fun t ht n q => ht.of_slots (hf t n q)

/-- The Session Unit keeps the queues right where its handling does. -/
theorem State.queuesRight.takeSession {s : State} (h : s.queuesRight) (dt : Nat) (n : HostId) (k : Kind)
    {f : State → HostId → Request → Session → State × Answer}
    (hf : ∀ t : State, t.queuesRight → ∀ n q c, (f t n q c).1.queuesRight) :
    ((s.elapse dt).takeSession n k f).queuesRight := by
  rcases (s.elapse dt).takeSession_cases n k f with heq | ⟨q, _, _, _, ⟨st, _, heq⟩ | ⟨_, heq⟩⟩ <;> rw [heq]
  · exact h.of_slots rfl
  · exact h.of_slots rfl
  · exact (hf _ (h.of_slots (by simp)) n q _).of_slots (State.reply_slots _ _ _ _)

/-- The Session Unit keeps the queues right where its handling leaves the table. -/
theorem State.queuesRight.takeSession_of_slots {s : State} (h : s.queuesRight) (dt : Nat) (n : HostId) (k : Kind)
    {f : State → HostId → Request → Session → State × Answer} (hf : ∀ t n q c, (f t n q c).1.slots = t.slots) :
    ((s.elapse dt).takeSession n k f).queuesRight :=
  h.takeSession dt n k fun t ht m q c => ht.of_slots (hf t m q c)

/-- The Notice Board touches no record (R117). -/
theorem State.queuesRight.takeFetch {s : State} (h : s.queuesRight) (dt : Nat) (n : HostId) :
    ((s.elapse dt).takeAt n .fetchNotices handleFetch).queuesRight := by
  rcases (s.elapse dt).takeAt_cases n .fetchNotices handleFetch with heq | ⟨q, _, _, _, heq⟩ <;> rw [heq]
  · exact h.of_slots rfl
  · exact State.queuesRight.take (h.of_slots (s.elapse_slots dt)) n q fun t ht m p => ht.of_slots (handleFetch_slots t m p)

/-! ## Every command -/

/-- An empty table has nothing to keep. -/
theorem State.queuesRight_of_empty {s : State} (h : ∀ i, s.slots.get i = none) : s.queuesRight :=
  ⟨fun i r hr => by simp [h i] at hr, fun i r hr => by simp [h i] at hr⟩

/-- Every command keeps the queues right. -/
theorem exec_queuesRight (c : Instr) {s : State} (h : s.queuesRight) : ∃ t, exec c s = .next t ∧ t.queuesRight := by
  cases c with
  | hardwareReset dt => exact ⟨_, rfl, State.queuesRight_of_empty fun i => Table.get_fill 32 none i⟩
  | resetnRise dt levels => exact ⟨_, rfl, h.of_slots (by split <;> rfl)⟩
  | requestFrame dt n early bits => exact ⟨_, rfl, h.of_slots (State.transact_slots _ _ _ _)⟩
  | readTransaction dt n early clocks => exact ⟨_, rfl, h.of_slots (State.transact_slots _ _ _ _)⟩
  | ignoredTransaction dt n bits => exact ⟨_, rfl, h.of_slots (State.transact_slots _ _ _ _)⟩
  | status dt n => exact ⟨_, rfl, h.takeSession_of_slots dt n _ handleStatus_slots⟩
  | attach dt n => exact ⟨_, rfl, h.takeSession dt n _ fun _ ht => ht.handleAttach⟩
  | detach dt n => exact ⟨_, rfl, h.takeSession dt n _ fun _ ht => ht.handleDetach⟩
  | heartbeat dt n => exact ⟨_, rfl, h.takeSession_of_slots dt n _ handleHeartbeat_slots⟩
  | claim dt => exact ⟨_, rfl, h.takeChosen dt _ fun _ ht => ht.handleClaim⟩
  | release dt => exact ⟨_, rfl, h.takeChosen dt _ fun _ ht => ht.handleRelease⟩
  | queryClaim dt => exact ⟨_, rfl, h.takeChosen_of_slots dt _ handleQueryClaim_slots⟩
  | setLevels dt => exact ⟨_, rfl, h.takeChosen dt _ fun _ ht => ht.handleSetLevels⟩
  | reconfigure dt => exact ⟨_, rfl, h.takeChosen dt _ fun _ ht => ht.handleReconfigure⟩
  | clearFault dt => exact ⟨_, rfl, h.takeChosen_of_slots dt _ handleClearFault_slots⟩
  | readLines dt => exact ⟨_, rfl, h.takeChosen_of_slots dt _ handleReadLines_slots⟩
  | queryLine dt => exact ⟨_, rfl, h.takeChosen_of_slots dt _ handleQueryLine_slots⟩
  | fetchNotices dt n => exact ⟨_, rfl, h.takeFetch dt n⟩
  | readProfile dt => exact ⟨_, rfl, h.takeChosen_of_slots dt _ handleReadProfile_slots⟩
  | setLineProfile dt => exact ⟨_, rfl, h.takeChosen dt _ fun _ ht => ht.handleSetLineProfile⟩
  | setBond dt => exact ⟨_, rfl, h.takeChosen_of_slots dt _ handleSetBond_slots⟩
  | setHostProfile dt => exact ⟨_, rfl, h.takeChosen_of_slots dt _ handleSetHostProfile_slots⟩
  | setTiming dt => exact ⟨_, rfl, h.takeChosen_of_slots dt _ handleSetTiming_slots⟩
  | commitProfile dt => exact ⟨_, rfl, h.takeChosen_of_slots dt _ handleCommitProfile_slots⟩
  | reopenVote dt => exact ⟨_, rfl, h.takeChosen_of_slots dt _ handleReopenVote_slots⟩
  | clearAll dt => exact ⟨_, rfl, h.takeChosen dt _ fun _ ht => ht.handleClearAll⟩
  | samplingTick levels => exact ⟨_, rfl, h.of_slots (by split <;> simp)⟩
  | blankingEnd l => exact ⟨_, rfl, h.of_slots (by split <;> rfl)⟩
  | settleEnd i => exact h.execSettleEnd i
  | yieldEnd i => exact h.execYieldEnd i
  | waitEnd i => exact h.execWaitEnd i
  | heartbeatExpiry m => exact h.execHeartbeatExpiry m
  | voteDeadline => exact h.execVoteDeadline

/-- Every step keeps the queues right. -/
theorem step_queuesRight {s t : State} (h : s.queuesRight) (hstep : step s = .next t) : t.queuesRight := by
  unfold step at hstep
  split at hstep
  · cases hstep
    exact h
  · rename_i c rest _
    obtain ⟨u, hu, hright⟩ := exec_queuesRight c (h.of_slots (t := { s with pending := rest }) rfl)
    cases hstep.symm.trans hu
    exact hright

/-- Settles O56: a grant makes no other record grantable, so one walk is enough, and every command that changes the table ends in an
evaluation, or only puts live-holding records in place. -/
theorem everyStepLeavesNoneGrantable : Obligations.EveryStepLeavesNoneGrantable := by
  unfold Obligations.EveryStepLeavesNoneGrantable
  intro s t hdistinct
  exact ⟨State.noneGrantable_grantWalk hdistinct, fun hnone hstep => step_queuesRight ⟨hdistinct, hnone⟩ hstep⟩

end Sys2Proof.Machine
end

section
/-! SUPPORT. What the pins do (R70): the changes of one line cell, each of which leaves the cell presenting what R70 gives for its
holder, its applied setting, its park and the line's rest state. -/

namespace Sys2Proof.Machine

/-- The cell presents what R70 gives for it while RESETn is high, under the rest state `rest`. -/
def Cell.pinRight (c : Cell) (rest : Rest) : Prop := c.presented = c.shown rest

/-- A parked cell shows rest (R70, R80). -/
theorem Cell.shown_of_parked {c : Cell} (h : c.parked = true) (rest : Rest) : c.shown rest = rest.pin := by
  unfold Cell.shown
  split <;> simp [h]

/-- A cell told to present presents what R70 gives. -/
theorem Cell.pinRight_present (c : Cell) (rest : Rest) : (c.present rest).pinRight rest := rfl

/-- The stage-1 filter leaves the pin and all it depends on (R75). -/
theorem Cell.pinRight.filter {c : Cell} {rest : Rest} (h : c.pinRight rest) (level : Bool) :
    (c.filter level).pinRight rest := by
  unfold Cell.filter
  split
  · exact h
  · split <;> exact h

/-- A sample filters, and parks where it finds a drive fault (R75, R80). -/
theorem Cell.pinRight.sample {c : Cell} {rest : Rest} (h : c.pinRight rest) (level : Bool) (moment : Nat) :
    (c.sample level moment rest).pinRight rest := by
  unfold Cell.sample
  split
  · exact Cell.pinRight_present _ rest
  · exact h.filter level

/-- Settings with one mode and one effective level do the same at the pin (R71, R85). -/
theorem Setting.pin_eq_of_sameDrive {old st : Setting} (hmode : old.mode = st.mode)
    (hlevel : effectiveLevel old = effectiveLevel st) : old.pin = st.pin := by
  obtain ⟨m, l, _, _⟩ := old
  obtain ⟨m', l', _, _⟩ := st
  obtain rfl : m = m' := hmode
  cases m with
  | input | inputPullup | inputPulldown => rfl
  | openDrain | pushPull =>
    obtain rfl : l = l' := Option.some.inj hlevel
    rfl

/-- A new applied setting that drives as the old one did leaves what the cell shows (R70, R71). -/
theorem Cell.shown_of_sameDrive {c : Cell} {old st : Setting} (happlied : c.applied = some old)
    (hmode : old.mode = st.mode) (hlevel : effectiveLevel old = effectiveLevel st) (rest : Rest) :
    { c with applied := some st }.shown rest = c.shown rest := by
  have hpin := Setting.pin_eq_of_sameDrive hmode hlevel
  unfold Cell.shown Cell.claimed
  cases c.holder with
  | none => rfl
  | some x => by_cases hx : x.state = .held ∨ x.state = .yielding <;> simp [hx, happlied, hpin]

/-- A setting adopted is stored where the cell is parked or drives as before, and presented where the drive changes (R84, R85). -/
theorem Cell.pinRight.adopt {c : Cell} {rest : Rest} (h : c.pinRight rest) (st : Setting) (now : Nat) :
    (c.adopt st rest now).pinRight rest := by
  unfold Cell.adopt
  split
  · rename_i old happlied
    split
    · rename_i hparked
      have hbefore : c.presented = rest.pin := Eq.trans h (Cell.shown_of_parked hparked rest)
      exact hbefore.trans (Cell.shown_of_parked (c := { c with applied := some st }) hparked rest).symm
    · split
      · rename_i hsame
        exact Eq.trans h (Cell.shown_of_sameDrive happlied hsame.1 hsame.2 rest).symm
      · exact Cell.pinRight_present _ rest
  · exact h

end Sys2Proof.Machine
end

section
/-! SUPPORT. What the pins do (R70), for the whole array: `keepsPins` says that a change keeps every pin right while RESETn is high,
and holds of every operation of the blocks. -/

namespace Sys2Proof.Machine

/-- Every cell presents what R70 gives for it while RESETn is high. -/
def State.pinsRight (s : State) : Prop := ∀ l, (s.cells.get l).pinRight (s.restOf l)

/-- While RESETn is high, the statements' reading of R70 is the cells'. -/
theorem State.presentsRight_iff_pinsRight {s : State} (hr : s.resetn = true) : s.presentsRight ↔ s.pinsRight := by
  refine forall_congr' fun l => ?_
  simp only [hr, if_true, Cell.pinRight, Cell.shown, Cell.claimed, State.restOf]
  cases (s.cells.get l).holder with
  | none => simp
  | some x =>
    cases (s.cells.get l).applied with
    | none => simp
    | some st => by_cases hx : x.state = .held ∨ x.state = .yielding <;> cases (s.cells.get l).parked <;> simp [hx]

/-- From `s` to `t` RESETn stays, and every pin is right afterwards if every pin was. -/
def keepsPins (s t : State) : Prop := t.resetn = s.resetn ∧ (s.pinsRight → t.pinsRight)

/-- Where nothing changes, no pin does. A change that leaves RESETn, the cells and the rest states is covered too: on those fields
its result unfolds to the state before. -/
theorem keepsPins.refl (s : State) : keepsPins s s := ⟨rfl, id⟩

/-- One change that keeps the pins follows another. -/
theorem keepsPins.trans {s t u : State} (h1 : keepsPins s t) (h2 : keepsPins t u) : keepsPins s u :=
  ⟨h2.1.trans h1.1, h2.2 ∘ h1.2⟩

/-- A list of changes that keep the pins is one. -/
theorem keepsPins.foldl {α : Type} (f : State → α → State) (h : ∀ s a, keepsPins s (f s a)) (l : List α) (s : State) :
    keepsPins s (l.foldl f s) := by
  induction l generalizing s with
  | nil => exact .refl s
  | cons a l ih => exact (h s a).trans (ih _)

/-- A change that keeps the pins, made for each host of a set. -/
theorem keepsPins.forHosts (s : State) (w : HostSet) (f : State → HostId → State) (h : ∀ t n, keepsPins t (f t n)) :
    keepsPins s (s.forHosts w f) :=
  State.forHosts_induct (keepsPins s) s w f (.refl s) fun t n _ ht => ht.trans (h t n)

/-- A change of the cells that keeps each cell right. -/
theorem keepsPins.mapCells (s : State) (f : LineId → Cell → Cell)
    (h : ∀ l c, c.pinRight (s.restOf l) → (f l c).pinRight (s.restOf l)) : keepsPins s (s.mapCells f) := by
  refine ⟨rfl, fun hs l => ?_⟩
  rw [State.mapCells_cells, Table.get_ofFn]
  exact h l _ (hs l)

/-- What R70 says is kept by a change that keeps the pins, made while RESETn is high. -/
theorem keepsPins.presentsRight {s t : State} (hk : keepsPins s t) (hr : s.resetn = true) (h : s.presentsRight) :
    t.presentsRight :=
  (State.presentsRight_iff_pinsRight (hk.1.trans hr)).mpr (hk.2 ((State.presentsRight_iff_pinsRight hr).mp h))

/-! ## The claim table -/

/-- The report of a settling holder (R73). -/
theorem keepsPins.reportSettling (s : State) (i : SlotId) (r : Record) : keepsPins s (s.reportSettling i r) :=
  .mapCells s _ fun l c hc => by
    split
    · exact Cell.pinRight_present _ _
    · exact hc

/-- The report of a holder entering HELD (R73). -/
theorem keepsPins.reportHeld (s : State) (i : SlotId) (r : Record) : keepsPins s (s.reportHeld i r) :=
  .mapCells s _ fun l c hc => by
    split
    · exact Cell.pinRight_present _ _
    · exact hc

/-- The report of a holder passing between HELD and YIELDING (R73). -/
theorem keepsPins.reportPass (s : State) (r : Record) (st : RecState) : keepsPins s (s.reportPass r st) :=
  .mapCells s _ fun l c hc => by
    split
    · exact Cell.pinRight_present _ _
    · exact hc

/-- The report of a holder gone (R73). -/
theorem keepsPins.reportFree (s : State) (r : Record) : keepsPins s (s.reportFree r) :=
  .mapCells s _ fun l c hc => by
    split
    · exact Cell.pinRight_present _ _
    · exact hc

/-- A record put in a slot. -/
theorem keepsPins.putRecord (s : State) (i : SlotId) (r : Record) : keepsPins s (s.putRecord i r) := .refl s

/-- An edit of a board. -/
theorem keepsPins.editBoard (s : State) (h : HostId) (f : Board → Board) : keepsPins s (s.editBoard h f) := .refl s

/-- A grant into a slot (R35, R43, R44). -/
theorem keepsPins.grantInto (s : State) (i : SlotId) (r : Record) : keepsPins s (s.grantInto i r) := by
  unfold State.grantInto
  split
  · exact (keepsPins.putRecord s i _).trans (.reportHeld _ i _)
  · exact (keepsPins.putRecord s i _).trans (.reportSettling _ i _)

/-- A grant of a walk (R35). -/
theorem keepsPins.grant (s : State) (i : SlotId) (r : Record) : keepsPins s (s.grant i r) := by
  unfold State.grant
  split
  · exact (keepsPins.grantInto s i r).trans (.editBoard _ _ _)
  · exact .grantInto s i r

/-- An entry to YIELDING (R53). -/
theorem keepsPins.enterYielding (s : State) (i : SlotId) (r : Record) : keepsPins s (s.enterYielding i r) :=
  ((keepsPins.putRecord s i _).trans (.reportPass _ r _)).trans (.editBoard _ _ _)

/-- A return to HELD (R56). -/
theorem keepsPins.returnHeld (s : State) (i : SlotId) (r : Record) : keepsPins s (s.returnHeld i r) :=
  ((keepsPins.putRecord s i _).trans (.reportPass _ r _)).trans (.editBoard _ _ _)

/-- An entry to HELD at a settle end (R45). -/
theorem keepsPins.enterHeld (s : State) (i : SlotId) (r : Record) : keepsPins s (s.enterHeld i r) :=
  (keepsPins.putRecord s i _).trans (.reportHeld _ i _)

/-- A step of the walk (R34). -/
theorem keepsPins.tryGrant (s : State) (i : SlotId) : keepsPins s (s.tryGrant i) := by
  rcases s.tryGrant_cases i with h | ⟨r, _, _, _, h⟩ <;> rw [h]
  · exact .refl s
  · exact .grant s i r

/-- A test of eligibility evaluation (R51). -/
theorem keepsPins.applyDemand (s : State) (i : SlotId) : keepsPins s (s.applyDemand i) := by
  rcases s.applyDemand_cases i with h | ⟨r, _, ⟨_, _, h⟩ | ⟨_, _, h⟩⟩ <;> rw [h]
  · exact .refl s
  · exact .enterYielding s i r
  · exact .returnHeld s i r

/-- An eligibility evaluation (R51). -/
theorem keepsPins.eligibility (s : State) : keepsPins s s.eligibility :=
  keepsPins.trans (t := { s with eligible := eligibleSet s.slots }) (.refl s) (.foldl _ keepsPins.applyDemand _ _)

/-- Grant evaluation, then eligibility evaluation (R37). -/
theorem keepsPins.evaluate (s : State) : keepsPins s s.evaluate :=
  (keepsPins.foldl _ keepsPins.tryGrant _ s).trans (.eligibility _)

/-- A freeing of a slot (R7). -/
theorem keepsPins.free (s : State) (i : SlotId) (cause : FreeCause) : keepsPins s (s.free i cause) := by
  unfold State.free
  split
  · exact .refl s
  · rename_i r _
    have hrest : keepsPins s (if r.live then s.reportFree r else s) := by
      split
      · exact .reportFree s r
      · exact .refl s
    exact hrest.trans (.refl _)

/-- A freeing of a list of slots, and the evaluations after it (R7). -/
theorem keepsPins.freeAll (s : State) (l : List SlotId) (cause : FreeCause) : keepsPins s (s.freeAll l cause) :=
  (keepsPins.foldl _ (fun t i => .free t i cause) l s).trans (.evaluate _)

/-- A settle end (R45, R54). -/
theorem keepsPins.settleEnd (s : State) (i : SlotId) (r : Record) : keepsPins s (s.settleEnd i r) := by
  unfold State.settleEnd
  split
  · exact (keepsPins.enterHeld s i r).trans (.enterYielding _ i _)
  · exact ((keepsPins.enterHeld s i r).trans (.editBoard _ _ _)).trans (.eligibility _)

/-- The handling of CLAIM (R15, R21). -/
theorem keepsPins.handleClaim (s : State) (n : HostId) (q : Request) : keepsPins s (handleClaim s n q).1 := by
  unfold Machine.handleClaim
  split
  · exact .refl s
  · split
    · exact .refl s
    · unfold State.admitClaim
      split
      · dsimp only
        exact (keepsPins.grantInto s _ _).trans (.eligibility _)
      · split
        · exact .refl s
        · dsimp only
          exact (keepsPins.putRecord s _ _).trans (.evaluate _)
    · exact .refl s

/-- The handling of RELEASE (R23). -/
theorem keepsPins.handleRelease (s : State) (n : HostId) (q : Request) : keepsPins s (handleRelease s n q).1 := by
  unfold Machine.handleRelease
  split
  · exact .refl s
  · split
    · exact .refl s
    · dsimp only
      exact .freeAll s _ _

/-- QUERY CLAIM reports (R25). -/
theorem keepsPins.handleQueryClaim (s : State) (n : HostId) (q : Request) : keepsPins s (handleQueryClaim s n q).1 := by
  unfold Machine.handleQueryClaim
  split
  · exact .refl s
  · split <;> exact .refl s

/-! ## The line cells -/

/-- New settings for a record and its cells (R69, R84, R85). -/
theorem keepsPins.resettle (s : State) (i : SlotId) (r : Record) (named : Nat → Bool) (f : Nat → Setting → Setting) :
    keepsPins s (s.resettle i r named f) := by
  refine (keepsPins.putRecord s i _).trans (.mapCells _ _ fun l c hc => ?_)
  split
  · split
    · exact hc.adopt _ _
    · exact hc
  · exact hc

/-- The handling of SET LEVELS (R83, R84). -/
theorem keepsPins.handleSetLevels (s : State) (n : HostId) (q : Request) : keepsPins s (handleSetLevels s n q).1 := by
  have applyLevels (i : SlotId) (r : Record) (a : LevelArgs) : keepsPins s (s.applyLevels i r a).1 := by
    unfold State.applyLevels
    split
    · exact .refl s
    · split
      · exact .refl s
      · exact .resettle s i r _ _
  unfold Machine.handleSetLevels
  split
  · exact .refl s
  · split
    · exact .refl s
    · split
      · split
        · exact applyLevels _ _ _
        · exact .refl s
      · exact .refl s

/-- The handling of RECONFIGURE (R83, R85). -/
theorem keepsPins.handleReconfigure (s : State) (n : HostId) (q : Request) : keepsPins s (handleReconfigure s n q).1 := by
  unfold Machine.handleReconfigure
  split
  · exact .refl s
  · split
    · exact .refl s
    · split
      · exact .refl s
      · split
        · exact (keepsPins.resettle s _ _ _ _).trans (.editBoard _ _ _)
        · exact .refl s

/-- The handling of CLEAR FAULT (R83, R86). -/
theorem keepsPins.handleClearFault (s : State) (n : HostId) (q : Request) : keepsPins s (handleClearFault s n q).1 := by
  have unparkLines (r : Record) (ps : Byte) : keepsPins s (s.unparkLines r ps) :=
    .mapCells s _ fun l c hc => by
      split
      · exact Cell.pinRight_present _ _
      · exact hc
  unfold Machine.handleClearFault
  split
  · exact .refl s
  · split
    · exact .refl s
    · split
      · split
        · exact unparkLines _ _
        · exact .refl s
      · exact .refl s

/-- READ LINES changes nothing (R87). -/
theorem handleReadLines_state (s : State) (n : HostId) (q : Request) : (handleReadLines s n q).1 = s := by
  unfold handleReadLines
  split <;> rfl

/-- QUERY LINE changes nothing (R88). -/
theorem handleQueryLine_state (s : State) (n : HostId) (q : Request) : (handleQueryLine s n q).1 = s := by
  unfold handleQueryLine
  split
  · rfl
  · split <;> rfl

/-- What each of a list of operations leaves, all of them leave. -/
theorem foldl_kept {α β : Type} (read : State → β) (f : State → α → State) (h : ∀ s a, read (f s a) = read s) (l : List α)
    (s : State) : read (l.foldl f s) = read s := by
  induction l generalizing s with
  | nil => rfl
  | cons a l ih => rw [List.foldl_cons, ih, h]

/-- A sampling tick leaves the RESETn pin. -/
@[simp] theorem State.tick_resetn (s : State) (levels : LineSet) : (s.tick levels).resetn = s.resetn := by
  rw [State.tick, State.mapCells_resetn]
  exact foldl_kept State.resetn _ (fun t h => t.editBoard_resetn h _) _ s

/-- A sampling tick leaves the profile. -/
@[simp] theorem State.tick_profile (s : State) (levels : LineSet) : (s.tick levels).profile = s.profile := by
  rw [State.tick, State.mapCells_profile]
  exact foldl_kept State.profile _ (fun t h => t.editBoard_profile h _) _ s

/-- A sampling tick samples every cell (R75, R141). -/
theorem State.tick_cell (s : State) (levels : LineSet) (l : LineId) :
    (s.tick levels).cells.get l = (s.cells.get l).sample (has levels l) s.tickTime (s.restOf l) := by
  rw [State.tick, State.mapCells_cells, Table.get_ofFn, foldl_kept State.cells _ fun t h => t.editBoard_cells h _]

/-- A sampling tick (R75, R141). -/
theorem keepsPins.tick (s : State) (levels : LineSet) : keepsPins s (s.tick levels) := by
  refine ⟨s.tick_resetn levels, fun hs l => ?_⟩
  rw [State.restOf, State.tick_profile, State.tick_cell]
  exact (hs l).sample _ _

end Sys2Proof.Machine
end

section
/-! SUPPORT. The pins (R70) through the blocks that own no line: the vote, the sessions, the profile and its rest states. -/

namespace Sys2Proof.Machine

/-! ## The vote -/

/-- The completion test (R135). -/
theorem keepsPins.completionTest (s : State) : keepsPins s s.completionTest := by
  rcases s.completionTest_cases with ⟨_, _, h⟩ | ⟨_, _, _, h⟩ | ⟨_, h⟩ <;> rw [h]
  · exact .refl s
  · exact keepsPins.trans (t := { s.endVote with profile := { s.profile with state := .opened } }) (.refl s)
      (.forHosts _ _ _ fun t n => .editBoard t n _)
  · exact .refl s

/-- The report of a host that joins (R135). -/
theorem keepsPins.hostJoined (s : State) (n : HostId) : keepsPins s (s.hostJoined n) := by
  unfold State.hostJoined
  split
  · exact .trans (.refl s) (.completionTest _)
  · exact .refl s

/-- The report of a host that leaves (R135). -/
theorem keepsPins.hostLeft (s : State) (n : HostId) : keepsPins s (s.hostLeft n) := by
  unfold State.hostLeft
  split
  · exact .trans (.refl s) (.completionTest _)
  · exact .refl s

/-- The report of a host that restarts (R135). -/
theorem keepsPins.hostRestarted (s : State) (n : HostId) : keepsPins s (s.hostRestarted n) := by
  unfold State.hostRestarted
  split
  · exact .trans (.refl s) (.completionTest _)
  · exact .refl s

/-- The start of a vote (R134). -/
theorem keepsPins.startVote (s : State) (n : HostId) : keepsPins s (s.startVote n) := by
  unfold State.startVote
  refine keepsPins.trans ?_ (.completionTest _)
  refine keepsPins.trans ?_ (.forHosts _ _ _ fun t m => .editBoard t m _)
  exact .refl s

/-- A vote cast while COMMITTED (R134). -/
theorem keepsPins.reopenVote (s : State) (n : HostId) : keepsPins s (s.reopenVote n) := by
  unfold State.reopenVote
  split
  · split
    · exact .refl s
    · exact .trans (.refl s) (.completionTest _)
  · exact .startVote s n

/-! ## Sessions -/

/-- A session context put in place. -/
theorem keepsPins.putSession (s : State) (n : HostId) (c : Session) : keepsPins s (s.putSession n c) := .refl s

/-- A board cleared whole (R113). -/
theorem keepsPins.clearBoard (s : State) (n : HostId) : keepsPins s (s.clearBoard n) := .refl s

/-- A freeing of every record of a host (R9). -/
theorem keepsPins.freeHost (s : State) (n : HostId) : keepsPins s (s.freeHost n) := .freeAll s _ _

/-- A restart (R96). -/
theorem keepsPins.restartSession (s : State) (n : HostId) (period : Nat) : keepsPins s (s.restartSession n period) := by
  have hended : keepsPins s (((s.freeHost n).clearBoard n).setVoted n false) :=
    ((keepsPins.freeHost s n).trans (.clearBoard _ n)).trans (.putSession _ n _)
  exact (hended.trans (.putSession _ n _)).trans (.hostRestarted _ n)

/-- A session that begins (R95). -/
theorem keepsPins.beginSession (s : State) (n : HostId) (period : Nat) : keepsPins s (s.beginSession n period) :=
  ((keepsPins.clearBoard s n).trans (.putSession _ n _)).trans (.hostJoined _ n)

/-- A DETACH from ATTACHED (R100). -/
theorem keepsPins.detachAttached (s : State) (n : HostId) : keepsPins s (s.detachAttached n) :=
  (((keepsPins.putSession s n _).trans (.freeHost _ n)).trans (.clearBoard _ n)).trans (.hostLeft _ n)

/-- A DETACH from LAPSED (R100). -/
theorem keepsPins.detachLapsed (s : State) (n : HostId) : keepsPins s (s.detachLapsed n) :=
  (keepsPins.putSession s n _).trans (.clearBoard _ n)

/-- A lapse (R99). -/
theorem keepsPins.lapse (s : State) (n : HostId) : keepsPins s (s.lapse n) :=
  ((((keepsPins.putSession s n _).trans (.freeHost _ n)).trans (.clearBoard _ n)).trans (.editBoard _ n _)).trans
    (.hostLeft _ n)

/-- STATUS changes nothing (R103). -/
theorem handleStatus_state (s : State) (n : HostId) (q : Request) (c : Session) : (handleStatus s n q c).1 = s := by
  unfold handleStatus
  split <;> rfl

/-- The handling of ATTACH (R95, R96). -/
theorem keepsPins.handleAttach (s : State) (n : HostId) (q : Request) (c : Session) :
    keepsPins s (handleAttach s n q c).1 := by
  unfold Machine.handleAttach
  split
  · exact .refl s
  · dsimp only
    split
    · exact .restartSession s n _
    · exact .beginSession s n _

/-- The handling of DETACH (R100). -/
theorem keepsPins.handleDetach (s : State) (n : HostId) (q : Request) (c : Session) :
    keepsPins s (handleDetach s n q c).1 := by
  unfold Machine.handleDetach
  split
  · dsimp only
    split
    · exact .detachAttached s n
    · exact .detachLapsed s n
  · exact .refl s

/-- The handling of HEARTBEAT (R98). -/
theorem keepsPins.handleHeartbeat (s : State) (n : HostId) (q : Request) (c : Session) :
    keepsPins s (handleHeartbeat s n q c).1 := by
  unfold Machine.handleHeartbeat
  split
  · exact .refl s
  · split <;> exact .refl s

/-- The handling of FETCH NOTICES (R117). -/
theorem keepsPins.handleFetch (s : State) (n : HostId) (q : Request) : keepsPins s (handleFetch s n q).1 := by
  unfold Machine.handleFetch
  split <;> exact .refl s

/-! ## The profile -/

/-- READ PROFILE changes nothing (R131). -/
theorem handleReadProfile_state (s : State) (n : HostId) (q : Request) : (handleReadProfile s n q).1 = s := by
  unfold handleReadProfile
  split <;> rfl

/-- A profile edit keeps the pins where the edit made does. -/
theorem keepsPins.profileEdit {α : Type} (s : State) (n : HostId) (args : Option α) (f : α → State × Answer)
    (h : ∀ a, keepsPins s (f a).1) : keepsPins s (profileEdit s n args f).1 := by
  rcases profileEdit_cases s n args f with ⟨st, hst⟩ | ⟨a, _, ha⟩
  · rw [hst]
    exact .refl s
  · rw [ha]
    exact h a

/-- New rest states stored, and told to the cells of the lines they are for (R72, R125). -/
theorem keepsPins.storeLines_tellRest (s : State) (es : List (LineId × LineProfile)) :
    keepsPins s ((s.storeLines es).tellRest es) := by
  refine ⟨rfl, fun hs l => ?_⟩
  simp only [State.tellRest, State.mapCells_cells, Table.get_ofFn]
  change Cell.pinRight _ ((s.storeLines es).restOf l)
  split
  · exact Cell.pinRight_present _ _
  · rename_i hnone
    have hrest : (s.storeLines es).restOf l = s.restOf l := by
      simp [State.restOf, Option.not_isSome_iff_eq_none.mp hnone]
    rw [hrest]
    exact hs l

/-- The handling of SET LINE PROFILE (R124 to R126). -/
theorem keepsPins.handleSetLineProfile (s : State) (n : HostId) (q : Request) :
    keepsPins s (handleSetLineProfile s n q).1 :=
  .profileEdit s n _ _ fun es => by
    dsimp only [State.applyLineProfile]
    split
    · exact .storeLines_tellRest s es
    · exact (keepsPins.storeLines_tellRest s es).trans (.freeAll _ _ _)

/-- The handling of SET BOND (R128). -/
theorem keepsPins.handleSetBond (s : State) (n : HostId) (q : Request) : keepsPins s (handleSetBond s n q).1 :=
  .profileEdit s n _ _ fun a => by split <;> exact .refl s

/-- The handling of SET HOST PROFILE (R129, R130). -/
theorem keepsPins.handleSetHostProfile (s : State) (n : HostId) (q : Request) :
    keepsPins s (handleSetHostProfile s n q).1 :=
  .profileEdit s n _ _ fun a => by
    split
    · exact .refl s
    · split <;> exact .refl s

/-- The handling of SET TIMING (R147). -/
theorem keepsPins.handleSetTiming (s : State) (n : HostId) (q : Request) : keepsPins s (handleSetTiming s n q).1 :=
  .profileEdit s n _ _ fun _ => .refl s

/-- The handling of COMMIT PROFILE (R132). -/
theorem keepsPins.handleCommitProfile (s : State) (n : HostId) (q : Request) :
    keepsPins s (handleCommitProfile s n q).1 :=
  .profileEdit s n _ _ fun _ => .refl s

/-- The handling of REOPEN VOTE (R134). -/
theorem keepsPins.handleReopenVote (s : State) (n : HostId) (q : Request) : keepsPins s (handleReopenVote s n q).1 := by
  unfold Machine.handleReopenVote
  split
  · split
    · exact .reopenVote s n
    · exact .refl s
  · exact .refl s

/-- The handling of CLEAR ALL (R137). -/
theorem keepsPins.handleClearAll (s : State) (n : HostId) (q : Request) : keepsPins s (handleClearAll s n q).1 := by
  have clearAll : keepsPins s (s.clearAll n) := by
    have hlapsed : keepsPins s
        (s.endVote.forHosts (lapsedBy s n) fun t m => t.putSession m ((t.sessions.get m).ended .lapsed)) :=
      .trans (.refl s) (.forHosts s.endVote _ _ fun t _ => .refl t)
    exact (hlapsed.trans (.freeAll _ _ _)).trans (.forHosts _ _ _ fun t _ => .refl t)
  unfold Machine.handleClearAll
  split
  · split
    · exact clearAll
    · exact .refl s
  · split <;> exact .refl s

end Sys2Proof.Machine
end

section
/-! SUPPORT. R70 through every command: while RESETn is high each keeps the pins right, and while it is low none touches a line but
a reset, which leaves it at FLOAT, and the rise of RESETn. -/

namespace Sys2Proof.Machine

/-! ## Requests -/

/-- A block that takes a request while RESETn is high keeps the pins where its handling does. -/
theorem keepsPins.take (s : State) (n : HostId) (q : Request) {f : State → HostId → Request → State × Answer}
    (hf : ∀ t n q, keepsPins t (f t n q).1) : keepsPins s (s.take n q f) := by
  rcases s.take_cases n q f with ⟨st, _, heq⟩ | ⟨_, heq⟩ <;> rw [heq]
  · exact .refl s
  · exact (hf s n q).trans (.refl _)

/-- A block with an arbiter takes a request only while RESETn is high. -/
theorem State.presentsRight_takeChosen {s : State} (h : s.presentsRight) (dt : Nat) (k : Kind)
    {f : State → HostId → Request → State × Answer} (hf : ∀ t n q, keepsPins t (f t n q).1) :
    ((s.elapse dt).takeChosen k f).presentsRight := by
  rcases (s.elapse dt).takeChosen_cases k f with heq | ⟨n, q, ⟨hr, _⟩, heq⟩ <;> rw [heq]
  · exact h
  · have hserve : keepsPins (s.elapse dt) ((s.elapse dt).serve k.owner n) := by cases k <;> exact .refl _
    exact (hserve.trans (.take _ n q hf)).presentsRight hr h

/-- A block with an arbiter whose handling changes nothing. -/
theorem State.presentsRight_takeChosen_of_state {s : State} (h : s.presentsRight) (dt : Nat) (k : Kind)
    {f : State → HostId → Request → State × Answer} (hf : ∀ t n q, (f t n q).1 = t) :
    ((s.elapse dt).takeChosen k f).presentsRight :=
  State.presentsRight_takeChosen h dt k fun t n q => by rw [hf]; exact .refl t

/-- The Notice Board takes a request only while RESETn is high. -/
theorem State.presentsRight_takeFetch {s : State} (h : s.presentsRight) (dt : Nat) (n : HostId) :
    ((s.elapse dt).takeAt n .fetchNotices handleFetch).presentsRight := by
  rcases (s.elapse dt).takeAt_cases n .fetchNotices handleFetch with heq | ⟨q, hr, _, _, heq⟩ <;> rw [heq]
  · exact h
  · exact (keepsPins.take (s.elapse dt) n q keepsPins.handleFetch).presentsRight hr h

/-- The Session Unit takes a request only while RESETn is high. -/
theorem State.presentsRight_takeSession {s : State} (h : s.presentsRight) (dt : Nat) (n : HostId) (k : Kind)
    {f : State → HostId → Request → Session → State × Answer} (hf : ∀ t n q c, keepsPins t (f t n q c).1) :
    ((s.elapse dt).takeSession n k f).presentsRight := by
  rcases (s.elapse dt).takeSession_cases n k f with heq | ⟨q, hr, _, _, ⟨st, _, heq⟩ | ⟨_, heq⟩⟩ <;> rw [heq]
  · exact h
  · exact h
  · have hrefresh : keepsPins (s.elapse dt) ((s.elapse dt).refresh n) := by
      rw [State.refresh_eq]
      exact .refl _
    exact ((hrefresh.trans (hf _ n q _)).trans (.refl _)).presentsRight hr h

/-! ## Transactions -/

/-- The judgement of a request handed on (R92). -/
theorem keepsPins.judge (s : State) (n : HostId) (f : Frame) (k : Kind) : keepsPins s (s.judge n f k) := by
  unfold State.judge
  split
  · exact .refl s
  · split
    · exact .refl s
    · rw [State.refresh_eq]
      exact .refl s

/-- A well-formed frame received (R155, R156). -/
theorem keepsPins.acceptFrame (s : State) (n : HostId) (f : Frame) : keepsPins s (s.acceptFrame n f) := by
  unfold State.acceptFrame
  split
  · split
    · exact .refl s
    · split
      · exact .judge s n f _
      · exact .refl s
  · split
    · exact .judge s n f _
    · exact .refl s

/-- A write transaction (R151, R153). -/
theorem keepsPins.write (s : State) (n : HostId) (bits : List Bool) : keepsPins s (s.write n bits) := by
  have frameEnd (t : State) : keepsPins t (t.frameEnd n bits) := by
    unfold State.frameEnd
    split
    · exact .refl t
    · exact .acceptFrame t n _
  unfold State.write
  split
  · exact .refl s
  · exact .refl s
  · exact .trans (.refl s) (frameEnd _)
  · exact .trans (.refl s) (frameEnd _)

/-- A transaction drives no line, and one that meets RESETn low changes no more than its own record (R150). -/
theorem State.presentsRight_transact {s : State} (h : s.presentsRight) (n : HostId) (early : Bool) (bits : List Bool) :
    (s.transact n early bits).presentsRight := by
  unfold State.transact
  split
  · rename_i hhigh
    obtain ⟨hr, _⟩ := Bool.and_eq_true_iff.mp hhigh
    split
    · split
      · exact (keepsPins.write s n _).presentsRight hr h
      · split <;> exact h
    · exact h
  · exact h

/-! ## The RESETn pin -/

/-- The outcome is a next state in which every pin does what R70 says. -/
def presentsNext (o : Host.Outcome State Fault Refusal) : Prop := ∃ t, o = .next t ∧ t.presentsRight

/-- A next state that presents right is one. -/
theorem presentsNext.of_presentsRight {t : State} (h : t.presentsRight) : presentsNext (.next t) := ⟨t, rfl, h⟩

/-- A change that keeps the pins, made while RESETn is high. -/
theorem presentsNext.of_keepsPins {s t : State} (hk : keepsPins s t) (hr : s.resetn = true) (h : s.presentsRight) :
    presentsNext (.next t) := ⟨t, rfl, hk.presentsRight hr h⟩

/-- HARDWARE_RESET: every line presents FLOAT, and every rest state is its default (R74, R121). -/
theorem presentsNext_execHardwareReset (dt : Nat) (s : State) : presentsNext (execHardwareReset dt s) :=
  .of_presentsRight fun l => by simp [Cell.inReset, Profile.reset]

/-- RESETN_RISE: the lines present their rest states, which RESETn low has left at FLOAT (R69, R74). -/
theorem State.presentsRight.execResetnRise {s : State} (h : s.presentsRight) (dt : Nat) (levels : LineSet) :
    presentsNext (execResetnRise dt levels s) := by
  unfold Machine.execResetnRise
  split
  · exact .of_presentsRight h
  · rename_i hlow
    refine .of_presentsRight ((State.presentsRight_iff_pinsRight rfl).mpr fun l => ?_)
    have hrest : (s.profile.lines.get l).rest = .float := by
      have hl := h l
      rw [if_neg hlow] at hl
      obtain ⟨_, _, hrest⟩ := hl
      exact hrest
    simp [Cell.pinRight, Cell.shown, Cell.claimed, Cell.reset, State.restOf, hrest, Rest.pin]

/-! ## Deadlines and ticks -/

/-- SETTLE_END (R45). -/
theorem State.presentsRight.execSettleEnd {s : State} (h : s.presentsRight) (i : SlotId) :
    presentsNext (execSettleEnd i s) := by
  unfold Machine.execSettleEnd
  split
  · rename_i r hr _
    split
    · rename_i d _ _
      exact .of_keepsPins (keepsPins.settleEnd (s.reach d) i r) hr h
    · exact .of_presentsRight h
  · exact .of_presentsRight h

/-- YIELD_END (R58). -/
theorem State.presentsRight.execYieldEnd {s : State} (h : s.presentsRight) (i : SlotId) :
    presentsNext (execYieldEnd i s) := by
  unfold Machine.execYieldEnd
  split
  · rename_i hr _
    split
    · rename_i d _ _
      exact .of_keepsPins (keepsPins.freeAll (s.reach d) [i] .revoked) hr h
    · exact .of_presentsRight h
  · exact .of_presentsRight h

/-- WAIT_END (R41). -/
theorem State.presentsRight.execWaitEnd {s : State} (h : s.presentsRight) (i : SlotId) :
    presentsNext (execWaitEnd i s) := by
  unfold Machine.execWaitEnd
  split
  · rename_i hr _
    split
    · rename_i d _ _
      exact .of_keepsPins (keepsPins.freeAll (s.reach d) [i] .waitExpired) hr h
    · exact .of_presentsRight h
  · exact .of_presentsRight h

/-- HEARTBEAT_EXPIRY (R99). -/
theorem State.presentsRight.execHeartbeatExpiry {s : State} (h : s.presentsRight) (n : HostId) :
    presentsNext (execHeartbeatExpiry n s) := by
  unfold Machine.execHeartbeatExpiry
  split
  · rename_i d hr _ _
    exact .of_keepsPins (keepsPins.lapse (s.reach d) n) hr h
  · exact .of_presentsRight h

/-- VOTE_DEADLINE (R136). -/
theorem State.presentsRight.execVoteDeadline {s : State} (h : s.presentsRight) : presentsNext (execVoteDeadline s) := by
  unfold Machine.execVoteDeadline
  split
  · rename_i d hr _ _
    exact .of_keepsPins (keepsPins.forHosts (s.reach d).endVote _ _ fun t m => .editBoard t m _) hr h
  · exact .of_presentsRight h

/-- SAMPLING_TICK (R141). -/
theorem State.presentsRight.execSamplingTick {s : State} (h : s.presentsRight) (levels : LineSet) :
    presentsNext (execSamplingTick levels s) := by
  unfold Machine.execSamplingTick
  split
  · rename_i hr
    exact .of_keepsPins (keepsPins.tick s levels) hr h
  · exact .of_presentsRight h

/-- The end of a line's blanking moves no pin (R142). -/
theorem keepsPins.unblank (s : State) (l : LineId) (e : Nat) :
    keepsPins s { s.reach e with cells := s.cells.set l ((s.cells.get l).unblank e) } := by
  refine ⟨rfl, fun hs m => ?_⟩
  simp only [Table.get_set]
  split
  · rename_i hm
    rw [hm]
    exact hs l
  · exact hs m

/-- BLANKING_END (R142). -/
theorem State.presentsRight.execBlankingEnd {s : State} (h : s.presentsRight) (l : LineId) :
    presentsNext (execBlankingEnd l s) := by
  unfold Machine.execBlankingEnd
  split
  · rename_i e hr _
    exact .of_keepsPins (keepsPins.unblank s l e) hr h
  · exact .of_presentsRight h

/-! ## Every command -/

/-- Every command keeps what R70 says. -/
theorem exec_presentsNext (c : Instr) {s : State} (h : s.presentsRight) : presentsNext (exec c s) := by
  cases c with
  | hardwareReset dt => exact presentsNext_execHardwareReset dt s
  | resetnRise dt levels => exact h.execResetnRise dt levels
  | requestFrame dt n early bits => exact .of_presentsRight (State.presentsRight_transact (s := s.elapse dt) h n _ _)
  | readTransaction dt n early clocks => exact .of_presentsRight (State.presentsRight_transact (s := s.elapse dt) h n _ _)
  | ignoredTransaction dt n bits => exact .of_presentsRight (State.presentsRight_transact (s := s.elapse dt) h n _ _)
  | status dt n =>
    exact .of_presentsRight (State.presentsRight_takeSession h dt n _ fun t n q c => by rw [handleStatus_state]; exact .refl t)
  | attach dt n => exact .of_presentsRight (State.presentsRight_takeSession h dt n _ keepsPins.handleAttach)
  | detach dt n => exact .of_presentsRight (State.presentsRight_takeSession h dt n _ keepsPins.handleDetach)
  | heartbeat dt n => exact .of_presentsRight (State.presentsRight_takeSession h dt n _ keepsPins.handleHeartbeat)
  | claim dt => exact .of_presentsRight (State.presentsRight_takeChosen h dt _ keepsPins.handleClaim)
  | release dt => exact .of_presentsRight (State.presentsRight_takeChosen h dt _ keepsPins.handleRelease)
  | queryClaim dt => exact .of_presentsRight (State.presentsRight_takeChosen h dt _ keepsPins.handleQueryClaim)
  | setLevels dt => exact .of_presentsRight (State.presentsRight_takeChosen h dt _ keepsPins.handleSetLevels)
  | reconfigure dt => exact .of_presentsRight (State.presentsRight_takeChosen h dt _ keepsPins.handleReconfigure)
  | clearFault dt => exact .of_presentsRight (State.presentsRight_takeChosen h dt _ keepsPins.handleClearFault)
  | readLines dt => exact .of_presentsRight (State.presentsRight_takeChosen_of_state h dt _ handleReadLines_state)
  | queryLine dt => exact .of_presentsRight (State.presentsRight_takeChosen_of_state h dt _ handleQueryLine_state)
  | fetchNotices dt n => exact .of_presentsRight (State.presentsRight_takeFetch h dt n)
  | readProfile dt => exact .of_presentsRight (State.presentsRight_takeChosen_of_state h dt _ handleReadProfile_state)
  | setLineProfile dt => exact .of_presentsRight (State.presentsRight_takeChosen h dt _ keepsPins.handleSetLineProfile)
  | setBond dt => exact .of_presentsRight (State.presentsRight_takeChosen h dt _ keepsPins.handleSetBond)
  | setHostProfile dt => exact .of_presentsRight (State.presentsRight_takeChosen h dt _ keepsPins.handleSetHostProfile)
  | setTiming dt => exact .of_presentsRight (State.presentsRight_takeChosen h dt _ keepsPins.handleSetTiming)
  | commitProfile dt => exact .of_presentsRight (State.presentsRight_takeChosen h dt _ keepsPins.handleCommitProfile)
  | reopenVote dt => exact .of_presentsRight (State.presentsRight_takeChosen h dt _ keepsPins.handleReopenVote)
  | clearAll dt => exact .of_presentsRight (State.presentsRight_takeChosen h dt _ keepsPins.handleClearAll)
  | samplingTick levels => exact h.execSamplingTick levels
  | blankingEnd l => exact h.execBlankingEnd l
  | settleEnd i => exact h.execSettleEnd i
  | yieldEnd i => exact h.execYieldEnd i
  | waitEnd i => exact h.execWaitEnd i
  | heartbeatExpiry n => exact h.execHeartbeatExpiry n
  | voteDeadline => exact h.execVoteDeadline

/-- Settles O52: while RESETn is high every change of a cell or of a rest state leaves the pin as R70 gives it, and while RESETn is
low no command touches a line but a reset and the rise. -/
theorem everyStepPresentsRight : Obligations.EveryStepPresentsRight := by
  unfold Obligations.EveryStepPresentsRight
  intro s t h hstep
  unfold step at hstep
  split at hstep
  · cases hstep
    exact h
  · rename_i c rest _
    obtain ⟨u, hu, hright⟩ := exec_presentsNext c (s := { s with pending := rest }) h
    cases hstep.symm.trans hu
    exact hright

end Sys2Proof.Machine
end

section
/-! SUPPORT. What READ LINES and QUERY LINE report (R87, R88): the sets of lines, the state of a line, the length of its queue. -/

namespace Sys2Proof.Machine

/-- A request whose handling changes nothing is answered, and nothing else changes (R156). -/
theorem State.takeChosen_onlyAnswers {s : State} {k : Kind} {n : HostId} {q : Request} (h : s.takes k n q) (dt : Nat)
    {f : State → HostId → Request → State × Answer} {a : Answer} (hf : f (s.turn dt k n) n q = (s.turn dt k n, a)) :
    onlyAnswers s ((s.elapse dt).takeChosen k f) dt k n q a.status a.payload := by
  rw [State.takeChosen_of_takes h, hf]
  exact s.onlyAnswers_turn_reply dt k n q a

/-! ## READ LINES -/

/-- The levels READ LINES reports: those of the lines permitted or held (R87). -/
def reportedLevels (s : State) (n : HostId) : LineSet := levelSet s &&& (permittedSet s n ||| heldSet s n)

/-- The three sets READ LINES reports, line by line (R76, R87). -/
theorem has_reportedSets (s : State) (n : HostId) (l : LineId) :
    has (permittedSet s n) l = has (s.profile.lines.get l).mask n
      ∧ has (heldSet s n) l = (match (s.cells.get l).holder with | some x => decide (x.owner = n) | none => false)
      ∧ has (reportedLevels s n) l = ((has (permittedSet s n) l || has (heldSet s n) l) && (s.cells.get l).filtered) := by
  refine ⟨has_bitsWhere _ l, ?_, ?_⟩
  · rw [heldSet, has_bitsWhere]
    cases (s.cells.get l).holder <;> rfl
  · rw [reportedLevels, has_and, has_or, levelSet, has_bitsWhere, Bool.and_comm]

/-- READ LINES without a payload reports three line sets (R87). -/
theorem handleReadLines_of_empty (s : State) (n : HostId) {q : Request} (h : q.payload = []) :
    handleReadLines s n q = (s, Answer.mk .ok
      (sentLines (reportedLevels s n) ++ sentLines (permittedSet s n) ++ sentLines (heldSet s n))) := by
  rw [handleReadLines, if_pos h, lineSetBytes_eq, lineSetBytes_eq, lineSetBytes_eq, reportedLevels]

/-- READ LINES with a payload is refused (R87). -/
theorem handleReadLines_of_payload (s : State) (n : HostId) {q : Request} (h : q.payload ≠ []) :
    handleReadLines s n q = (s, bare .badArgument) := by
  rw [handleReadLines, if_neg h]

/-- Settles O38: the three sets are read off the cells and the profile, and the reply alone follows. -/
theorem readLinesReports : Obligations.ReadLinesReports := by
  unfold Obligations.ReadLinesReports
  intro s dt n q htakes
  let u := s.turn dt .readLines n
  refine ⟨_, reportedLevels u n, permittedSet u n, heldSet u n, rfl, has_reportedSets u n, ?_⟩
  split
  · rename_i hempty
    exact State.takeChosen_onlyAnswers htakes dt (handleReadLines_of_empty u n hempty)
  · rename_i hpayload
    exact State.takeChosen_onlyAnswers htakes dt (handleReadLines_of_payload u n hpayload)

/-! ## QUERY LINE -/

/-- A payload names no line exactly when it is not one byte below 48 (R88). -/
theorem lineArg_eq_none (p : List Byte) : lineArg p = none ↔ p.length ≠ 1 ∨ 48 ≤ (p.getD 0 0#8).toNat := by
  match p with
  | [] => simp [lineArg]
  | [_] => simp [lineArg]
  | _ :: _ :: _ => simp [lineArg]

/-- A line's number names the line (R88, R161). -/
theorem lineArg_number (l : LineId) : lineArg [BitVec.ofNat 8 l.val] = some l := by
  have hl : (BitVec.ofNat 8 l.val).toNat = l.val := by
    rw [BitVec.toNat_ofNat]
    omega
  simp [lineArg, hl]

/-- The lines QUERY LINE reports to a host: those permitted to it or held by it (R88). -/
theorem has_permitted_or_held (s : State) (n : HostId) (l : LineId) :
    has (permittedSet s n ||| heldSet s n) l = true
      ↔ has (s.profile.lines.get l).mask n = true ∨ ∃ x ∈ (s.cells.get l).holder, x.owner = n := by
  obtain ⟨hpermitted, hheld, _⟩ := has_reportedSets s n l
  rw [has_or, hpermitted, hheld]
  cases (s.cells.get l).holder <;> simp

/-- QUERY LINE of what names no line is refused (R88). -/
theorem handleQueryLine_of_malformed (s : State) (n : HostId) {q : Request} (h : lineArg q.payload = none) :
    handleQueryLine s n q = (s, bare .badArgument) := by
  rw [handleQueryLine, h]

/-- QUERY LINE of a line permitted or held reports it (R88). -/
theorem handleQueryLine_of_reported {s : State} {n : HostId} {q : Request} {l : LineId} (hline : lineArg q.payload = some l)
    (h : has (s.profile.lines.get l).mask n = true ∨ ∃ x ∈ (s.cells.get l).holder, x.owner = n) :
    handleQueryLine s n q = (s, Answer.mk .ok (queryLinePayload s n l)) := by
  simp only [handleQueryLine, hline, if_pos ((has_permitted_or_held s n l).mpr h)]

/-- QUERY LINE of a line neither permitted nor held is refused (R88). -/
theorem handleQueryLine_of_closed {s : State} {n : HostId} {q : Request} {l : LineId} (hline : lineArg q.payload = some l)
    (h : ¬ (has (s.profile.lines.get l).mask n = true ∨ ∃ x ∈ (s.cells.get l).holder, x.owner = n)) :
    handleQueryLine s n q = (s, bare .notPermitted) := by
  simp only [handleQueryLine, hline, if_neg (mt (has_permitted_or_held s n l).mp h)]

/-- A line's queue is as long as there are WAITING records that name the line (R28). -/
theorem length_queueOf (t : Slots) (l : LineId) :
    (queueOf t l).length = (List.finRange 32).countP fun j =>
      match t.get j with | some w => w.state == .waiting && w.names l | none => false := by
  calc (queueOf t l).length
    _ = (waitingOrder t).countP fun x => x.2.names l := List.countP_eq_length_filter.symm
    _ = ((recordsOf t).filter fun x => x.2.state == .waiting).countP fun x => x.2.names l := (sortBy_perm _ _).countP_eq _
    _ = (recordsOf t).countP fun x => x.2.names l && x.2.state == .waiting := List.countP_filter
    _ = _ := by
      rw [recordsOf, List.countP_filterMap]
      refine List.countP_congr fun j _ => ?_
      cases t.get j <;> simp [and_comm]

/-- The state a line is reported in, where its holder is not WAITING (R88). -/
theorem lineStateCode_eq {c : Cell} (h : ∀ x ∈ c.holder, x.state ≠ .waiting) :
    lineStateCode c = match c.holder with
      | none => 0#8
      | some x => if x.state = .settling then 1#8 else if c.parked then 4#8 else if x.state = .held then 2#8 else 3#8 := by
  unfold lineStateCode
  cases hc : c.holder with
  | none => rfl
  | some x =>
    cases hs : x.state with
    | waiting => exact absurd hs (h x hc)
    | settling | held | yielding => simp [hs]

/-- Settles O39: the payload is read, then the line's permission and holder, then the report is written out. -/
theorem queryLineReports : Obligations.QueryLineReports := by
  unfold Obligations.QueryLineReports
  intro s dt n q l htakes hpayload
  let u := s.turn dt .queryLine n
  refine ⟨_, rfl, ?_⟩
  split
  · rename_i hbad
    exact State.takeChosen_onlyAnswers htakes dt (handleQueryLine_of_malformed u n ((lineArg_eq_none _).mpr hbad))
  · rename_i hgood
    obtain ⟨hbyte, hholder⟩ := hpayload.resolve_right hgood
    have hline : lineArg q.payload = some l := by rw [hbyte, lineArg_number]
    split
    · rename_i hreported
      have hanswer : onlyAnswers s _ dt .queryLine n q .ok (queryLinePayload s n l) :=
        State.takeChosen_onlyAnswers htakes dt (handleQueryLine_of_reported (s := u) hline hreported)
      convert hanswer using 2
      rw [queryLinePayload, length_queueOf, lineStateCode_eq hholder]
      cases (s.cells.get l).holder <;> rfl
    · rename_i hclosed
      exact State.takeChosen_onlyAnswers htakes dt (handleQueryLine_of_closed (s := u) hline hclosed)

end Sys2Proof.Machine
end

section
/-! SUPPORT. What a notice board can become (R106 to R117): the edits the blocks make of one board, each of which leaves its ATTN as
R114 gives it. -/

namespace Sys2Proof.Machine

/-- `e` is what an edit of board `b` writes, ATTN apart: a ticket notice posted (R107), the traces of a freed record removed (R7, R8),
watches stopped (R78), a sample's edges and parks (R77, R80), session flags (R112), what a fetch leaves (R117), or nothing (R113). -/
inductive BoardEdit (b : Board) : Board → Prop
  | posted (t : Byte) (k : NoticeKind) : BoardEdit b (b.post t k)
  | freed (ls : LineSet) (cause : FreeCause) (t : Byte) : BoardEdit b ((b.clearLines ls).afterFreeing cause t)
  | unwatched (ls : LineSet) : BoardEdit b (b.unwatch ls)
  | sampled (edges parks : LineSet) : BoardEdit b (b.sampled edges parks)
  | flagged (f : SessionFlags → SessionFlags) : BoardEdit b { b with flags := f b.flags }
  | fetched : BoardEdit b b.fetched
  | cleared : BoardEdit b Board.empty

/-- Board `b` becomes `b'` by one edit, its ATTN set with it (R114). -/
def Board.becomes (b b' : Board) : Prop := ∃ e, BoardEdit b e ∧ b' = { e with attn := !e.isEmpty }

/-- A board's ATTN is asserted exactly while the board is not empty (R114). -/
def Board.attnFollows (b : Board) : Prop := b.attn = true ↔ ¬ b.bare

/-- An edited board has its ATTN right, whatever it was before (R114). -/
theorem Board.becomes.attnFollows {b b' : Board} (h : b.becomes b') : b'.attnFollows := by
  obtain ⟨e, _, rfl⟩ := h
  change (!e.isEmpty) = true ↔ ¬ e.bare
  simp [← Board.isEmpty_iff]

/-- An empty board has its ATTN deasserted (R106, R114). -/
theorem Board.attnFollows_empty : Board.empty.attnFollows := by
  simp [Board.attnFollows, Board.empty]

/-- Edits keep a board's ATTN right: the last of them sets it. -/
theorem Board.attnFollows.edited {b b' : Board} (h : b.attnFollows) (hedits : Relation.ReflTransGen Board.becomes b b') :
    b'.attnFollows := by
  rcases hedits.cases_tail with rfl | ⟨_, _, hlast⟩
  · exact h
  · exact hlast.attnFollows

/-- The link status byte's bit 4 tells whether the board holds anything (R157). -/
theorem statusByte_attn (p : Port) (b : Board) : (statusByte p b).getLsbD 4 = !b.isEmpty := by
  have hbit (x : Bool) (i : Nat) : (flagBit x i).getLsbD 4 = (x && decide (i = 4)) := by
    unfold flagBit
    cases x with
    | false => simp
    | true =>
      simp only [if_true, BitVec.getLsbD_shiftLeft, BitVec.getLsbD_one, Bool.true_and]
      rw [Bool.eq_iff_iff]
      simp
      omega
  simp only [statusByte, BitVec.getLsbD_or, hbit]
  simp

end Sys2Proof.Machine
end

section
/-! SUPPORT. What the blocks' operations do to the boards: `editsBoards` says that a change leaves the RESETn pin, and each board
by edits alone, and holds of every operation made while RESETn is high. -/

namespace Sys2Proof.Machine

/-- From `s` to `t` RESETn stays, and every board is edited some number of times, or stands. -/
def editsBoards (s t : State) : Prop :=
  t.resetn = s.resetn ∧ ∀ h, Relation.ReflTransGen Board.becomes (s.boards.get h) (t.boards.get h)

/-- Where nothing changes, no board does. A change that leaves RESETn and the boards is covered too: on those fields its result
unfolds to the state before. -/
theorem editsBoards.refl (s : State) : editsBoards s s := ⟨rfl, fun _ => .refl⟩

/-- One change that edits boards follows another. -/
theorem editsBoards.trans {s t u : State} (h1 : editsBoards s t) (h2 : editsBoards t u) : editsBoards s u :=
  ⟨h2.1.trans h1.1, fun h => (h1.2 h).trans (h2.2 h)⟩

/-- A list of changes that edit boards is one. -/
theorem editsBoards.foldl {α : Type} (f : State → α → State) (h : ∀ s a, editsBoards s (f s a)) (l : List α) (s : State) :
    editsBoards s (l.foldl f s) := by
  induction l generalizing s with
  | nil => exact .refl s
  | cons a l ih => exact (h s a).trans (ih _)

/-- A change that edits boards, made for each host of a set. -/
theorem editsBoards.forHosts (s : State) (w : HostSet) (f : State → HostId → State) (h : ∀ t n, editsBoards t (f t n)) :
    editsBoards s (s.forHosts w f) :=
  State.forHosts_induct (editsBoards s) s w f (.refl s) fun t n _ ht => ht.trans (h t n)

/-- An edit put in place on one host's board (R114). -/
theorem editsBoards.putBoard (s : State) (n : HostId) {e : Board} (he : BoardEdit (s.boards.get n) e) :
    editsBoards s (s.putBoard n e) := by
  refine ⟨rfl, fun h => ?_⟩
  rw [State.putBoard_boards, Table.get_set]
  split
  · rename_i heq
    subst heq
    exact .single ⟨e, he, rfl⟩
  · exact .refl

/-- A ticket notice posted (R107). -/
theorem editsBoards.post (s : State) (n : HostId) (t : Byte) (k : NoticeKind) : editsBoards s (s.post n t k) :=
  .putBoard s n (.posted t k)

/-- Session flags set (R112). -/
theorem editsBoards.flag (s : State) (n : HostId) (f : SessionFlags → SessionFlags) : editsBoards s (s.flag n f) :=
  .putBoard s n (.flagged f)

/-- A board cleared whole (R113). -/
theorem editsBoards.clearBoard (s : State) (n : HostId) : editsBoards s (s.clearBoard n) :=
  .putBoard s n .cleared

/-- A deadline's moment reached (R140). -/
theorem editsBoards.reach (s : State) (d : Nat) : editsBoards s (s.reach d) := .refl s

/-- A session context put in place. -/
theorem editsBoards.putSession (s : State) (n : HostId) (c : Session) : editsBoards s (s.putSession n c) := .refl s

/-! ## The claim table -/

/-- A grant into a slot (R35, R43, R44). -/
theorem editsBoards.grantInto (s : State) (i : SlotId) (r : Record) : editsBoards s (s.grantInto i r) := by
  unfold State.grantInto
  split <;> exact .refl s

/-- A grant of a walk (R35). -/
theorem editsBoards.grant (s : State) (i : SlotId) (r : Record) : editsBoards s (s.grant i r) := by
  unfold State.grant
  split
  · exact (editsBoards.grantInto s i r).trans (.post _ _ _ _)
  · exact .grantInto s i r

/-- An entry to YIELDING (R53). -/
theorem editsBoards.enterYielding (s : State) (i : SlotId) (r : Record) : editsBoards s (s.enterYielding i r) :=
  .trans (.refl s) (.post _ r.owner r.ticket .revokeNotice)

/-- A return to HELD (R56). -/
theorem editsBoards.returnHeld (s : State) (i : SlotId) (r : Record) : editsBoards s (s.returnHeld i r) :=
  .trans (.refl s) (.post _ r.owner r.ticket .revokeWithdrawn)

/-- A step of the walk (R34). -/
theorem editsBoards.tryGrant (s : State) (i : SlotId) : editsBoards s (s.tryGrant i) := by
  rcases s.tryGrant_cases i with h | ⟨r, _, _, _, h⟩ <;> rw [h]
  · exact .refl s
  · exact .grant s i r

/-- A test of eligibility evaluation (R51). -/
theorem editsBoards.applyDemand (s : State) (i : SlotId) : editsBoards s (s.applyDemand i) := by
  rcases s.applyDemand_cases i with h | ⟨r, _, ⟨_, _, h⟩ | ⟨_, _, h⟩⟩ <;> rw [h]
  · exact .refl s
  · exact .enterYielding s i r
  · exact .returnHeld s i r

/-- An eligibility evaluation (R51). -/
theorem editsBoards.eligibility (s : State) : editsBoards s s.eligibility :=
  editsBoards.trans (t := { s with eligible := eligibleSet s.slots }) (.refl s) (.foldl _ editsBoards.applyDemand _ _)

/-- Grant evaluation, then eligibility evaluation (R37). -/
theorem editsBoards.evaluate (s : State) : editsBoards s s.evaluate :=
  (editsBoards.foldl _ editsBoards.tryGrant _ s).trans (.eligibility _)

/-- A freeing of a slot (R7, R8). -/
theorem editsBoards.free (s : State) (i : SlotId) (cause : FreeCause) : editsBoards s (s.free i cause) := by
  unfold State.free
  split
  · exact .refl s
  · rename_i r _
    have hrest : editsBoards s (if r.live then s.reportFree r else s) := by split <;> exact .refl s
    exact (hrest.trans (.putBoard _ r.owner (.freed r.lineSet cause r.ticket))).trans (.refl _)

/-- A freeing of a list of slots, and the evaluations after it (R7). -/
theorem editsBoards.freeAll (s : State) (l : List SlotId) (cause : FreeCause) : editsBoards s (s.freeAll l cause) :=
  (editsBoards.foldl _ (fun t i => .free t i cause) l s).trans (.evaluate _)

/-- A settle end (R45, R54). -/
theorem editsBoards.settleEnd (s : State) (i : SlotId) (r : Record) : editsBoards s (s.settleEnd i r) := by
  have henter : editsBoards s (s.enterHeld i r) := .refl s
  unfold State.settleEnd
  split
  · exact henter.trans (.enterYielding _ i _)
  · exact (henter.trans (.post _ _ _ _)).trans (.eligibility _)

/-- The handling of CLAIM (R15, R21). -/
theorem editsBoards.handleClaim (s : State) (n : HostId) (q : Request) : editsBoards s (handleClaim s n q).1 := by
  have admitClaim (a : ClaimArgs) (i : SlotId) : editsBoards s (s.admitClaim n a i).1 := by
    unfold State.admitClaim
    split
    · exact (editsBoards.grantInto s _ _).trans (.eligibility _)
    · split
      · exact .refl s
      · exact .trans (t := s.putRecord i (newRecord s n a)) (.refl s) (.evaluate _)
  unfold Machine.handleClaim
  split
  · exact .refl s
  · split
    · exact .refl s
    · exact admitClaim _ _
    · exact .refl s

/-- The handling of RELEASE (R23). -/
theorem editsBoards.handleRelease (s : State) (n : HostId) (q : Request) : editsBoards s (handleRelease s n q).1 := by
  unfold Machine.handleRelease
  split
  · exact .refl s
  · split
    · exact .refl s
    · dsimp only
      exact .freeAll s _ _

/-- QUERY CLAIM changes nothing (R25). -/
theorem handleQueryClaim_state (s : State) (n : HostId) (q : Request) : (handleQueryClaim s n q).1 = s := by
  unfold handleQueryClaim
  split
  · rfl
  · split <;> rfl

/-! ## The line cells -/

/-- The handling of SET LEVELS (R83, R84). -/
theorem editsBoards.handleSetLevels (s : State) (n : HostId) (q : Request) : editsBoards s (handleSetLevels s n q).1 := by
  have applyLevels (i : SlotId) (r : Record) (a : LevelArgs) : editsBoards s (s.applyLevels i r a).1 := by
    unfold State.applyLevels
    split
    · exact .refl s
    · split <;> exact .refl s
  unfold Machine.handleSetLevels
  split
  · exact .refl s
  · split
    · exact .refl s
    · split
      · split
        · exact applyLevels _ _ _
        · exact .refl s
      · exact .refl s

/-- The handling of RECONFIGURE (R78, R85). -/
theorem editsBoards.handleReconfigure (s : State) (n : HostId) (q : Request) :
    editsBoards s (handleReconfigure s n q).1 := by
  have applySettings (i : SlotId) (r : Record) (named : List (Nat × Setting)) :
      editsBoards s (s.applySettings i r named) :=
    .trans (.refl s) (.putBoard _ r.owner (.unwatched _))
  unfold Machine.handleReconfigure
  split
  · exact .refl s
  · split
    · exact .refl s
    · split
      · exact .refl s
      · split
        · exact applySettings _ _ _
        · exact .refl s

/-- The handling of CLEAR FAULT (R83, R86). -/
theorem editsBoards.handleClearFault (s : State) (n : HostId) (q : Request) : editsBoards s (handleClearFault s n q).1 := by
  unfold Machine.handleClearFault
  split
  · exact .refl s
  · split
    · exact .refl s
    · split
      · split <;> exact .refl s
      · exact .refl s

/-- A sampling tick edits each host's board by the edges and parks of the host's own lines (R75, R77, R80). -/
theorem State.tick_boards (s : State) (levels : LineSet) :
    (s.tick levels).boards =
      ((List.finRange 4).foldl (fun t h => t.editBoard h fun b =>
        b.sampled (ownLines s h fun l c => c.edge (has levels l))
          (ownLines s h fun l c => c.faults (has levels l) s.tickTime)) s).boards := by
  rw [State.tick, State.mapCells_boards]

/-- A sampling tick (R75, R77, R80). -/
theorem editsBoards.tick (s : State) (levels : LineSet) : editsBoards s (s.tick levels) := by
  refine ⟨s.tick_resetn levels, fun h => ?_⟩
  rw [State.tick_boards]
  exact (editsBoards.foldl _ (fun t h => .putBoard t h (.sampled _ _)) _ s).2 h

end Sys2Proof.Machine
end

section
/-! SUPPORT. The boards through the blocks that own no line: the vote, the sessions, the Notice Board, the profile. -/

namespace Sys2Proof.Machine

/-! ## The vote -/

/-- The completion test (R135). -/
theorem editsBoards.completionTest (s : State) : editsBoards s s.completionTest := by
  rcases s.completionTest_cases with ⟨_, _, h⟩ | ⟨_, _, _, h⟩ | ⟨_, h⟩ <;> rw [h]
  · exact .refl s
  · exact editsBoards.trans (t := { s.endVote with profile := { s.profile with state := .opened } }) (.refl s)
      (.forHosts _ _ _ fun t n => .flag t n _)
  · exact .refl s

/-- The report of a host that joins (R112, R135). -/
theorem editsBoards.hostJoined (s : State) (n : HostId) : editsBoards s (s.hostJoined n) := by
  unfold State.hostJoined
  split
  · refine .trans ?_ (.completionTest _)
    exact .trans (.refl s) (.flag _ n _)
  · exact .refl s

/-- The report of a host that leaves (R135). -/
theorem editsBoards.hostLeft (s : State) (n : HostId) : editsBoards s (s.hostLeft n) := by
  unfold State.hostLeft
  split
  · exact .trans (.refl s) (.completionTest _)
  · exact .refl s

/-- The report of a host that restarts (R112, R135). -/
theorem editsBoards.hostRestarted (s : State) (n : HostId) : editsBoards s (s.hostRestarted n) := by
  unfold State.hostRestarted
  split
  · refine .trans ?_ (.completionTest _)
    exact .trans (.refl s) (.flag _ n _)
  · exact .refl s

/-- A vote cast while COMMITTED (R112, R134). -/
theorem editsBoards.reopenVote (s : State) (n : HostId) : editsBoards s (s.reopenVote n) := by
  unfold State.reopenVote
  split
  · split
    · exact .refl s
    · exact .trans (.refl s) (.completionTest _)
  · refine .trans ?_ (.completionTest _)
    refine .trans ?_ (.forHosts _ _ _ fun t m => .flag t m _)
    exact .refl s

/-! ## Sessions -/

/-- A freeing of every record of a host (R9). -/
theorem editsBoards.freeHost (s : State) (n : HostId) : editsBoards s (s.freeHost n) := .freeAll s _ _

/-- The board cleared once every record of its host is freed (R9, R113). -/
theorem editsBoards.freeHost_clearBoard (s : State) (n : HostId) : editsBoards s ((s.freeHost n).clearBoard n) :=
  (editsBoards.freeHost s n).trans (.clearBoard _ n)

/-- A restart (R96). -/
theorem editsBoards.restartSession (s : State) (n : HostId) (period : Nat) :
    editsBoards s (s.restartSession n period) := by
  have hended : editsBoards s (((s.freeHost n).clearBoard n).setVoted n false) :=
    (editsBoards.freeHost_clearBoard s n).trans (.putSession _ n _)
  exact (hended.trans (.putSession _ n _)).trans (.hostRestarted _ n)

/-- A session that begins (R95). -/
theorem editsBoards.beginSession (s : State) (n : HostId) (period : Nat) : editsBoards s (s.beginSession n period) :=
  ((editsBoards.clearBoard s n).trans (.putSession _ n _)).trans (.hostJoined _ n)

/-- A DETACH from ATTACHED (R100). -/
theorem editsBoards.detachAttached (s : State) (n : HostId) : editsBoards s (s.detachAttached n) :=
  ((editsBoards.putSession s n _).trans (.freeHost_clearBoard _ n)).trans (.hostLeft _ n)

/-- A DETACH from LAPSED (R100). -/
theorem editsBoards.detachLapsed (s : State) (n : HostId) : editsBoards s (s.detachLapsed n) :=
  (editsBoards.putSession s n _).trans (.clearBoard _ n)

/-- A lapse (R99). -/
theorem editsBoards.lapse (s : State) (n : HostId) : editsBoards s (s.lapse n) :=
  (((editsBoards.putSession s n _).trans (.freeHost_clearBoard _ n)).trans (.flag _ n _)).trans (.hostLeft _ n)

/-- The handling of ATTACH (R95, R96). -/
theorem editsBoards.handleAttach (s : State) (n : HostId) (q : Request) (c : Session) :
    editsBoards s (handleAttach s n q c).1 := by
  unfold Machine.handleAttach
  split
  · exact .refl s
  · dsimp only
    split
    · exact .restartSession s n _
    · exact .beginSession s n _

/-- The handling of DETACH (R100). -/
theorem editsBoards.handleDetach (s : State) (n : HostId) (q : Request) (c : Session) :
    editsBoards s (handleDetach s n q c).1 := by
  unfold Machine.handleDetach
  split
  · dsimp only
    split
    · exact .detachAttached s n
    · exact .detachLapsed s n
  · exact .refl s

/-- The handling of HEARTBEAT (R98). -/
theorem editsBoards.handleHeartbeat (s : State) (n : HostId) (q : Request) (c : Session) :
    editsBoards s (handleHeartbeat s n q c).1 := by
  unfold Machine.handleHeartbeat
  split
  · exact .refl s
  · split <;> exact .refl s

/-- The handling of FETCH NOTICES (R117). -/
theorem editsBoards.handleFetch (s : State) (n : HostId) (q : Request) : editsBoards s (handleFetch s n q).1 := by
  unfold Machine.handleFetch
  split
  · exact .putBoard s n .fetched
  · exact .refl s

/-! ## The profile -/

/-- A profile edit edits boards where the edit made does. -/
theorem editsBoards.profileEdit {α : Type} (s : State) (n : HostId) (args : Option α) (f : α → State × Answer)
    (h : ∀ a, editsBoards s (f a).1) : editsBoards s (profileEdit s n args f).1 := by
  rcases profileEdit_cases s n args f with ⟨st, hst⟩ | ⟨a, _, ha⟩
  · rw [hst]
    exact .refl s
  · rw [ha]
    exact h a

/-- The handling of SET LINE PROFILE (R124 to R126). -/
theorem editsBoards.handleSetLineProfile (s : State) (n : HostId) (q : Request) :
    editsBoards s (handleSetLineProfile s n q).1 :=
  .profileEdit s n _ _ fun es => by
    dsimp only [State.applyLineProfile]
    split
    · exact .refl s
    · exact .trans (t := (s.storeLines es).tellRest es) (.refl s) (.freeAll _ _ _)

/-- The handling of SET BOND (R128). -/
theorem editsBoards.handleSetBond (s : State) (n : HostId) (q : Request) : editsBoards s (handleSetBond s n q).1 :=
  .profileEdit s n _ _ fun a => by split <;> exact .refl s

/-- The handling of SET HOST PROFILE (R129, R130). -/
theorem editsBoards.handleSetHostProfile (s : State) (n : HostId) (q : Request) :
    editsBoards s (handleSetHostProfile s n q).1 :=
  .profileEdit s n _ _ fun a => by
    split
    · exact .refl s
    · split <;> exact .refl s

/-- The handling of SET TIMING (R147). -/
theorem editsBoards.handleSetTiming (s : State) (n : HostId) (q : Request) : editsBoards s (handleSetTiming s n q).1 :=
  .profileEdit s n _ _ fun _ => .refl s

/-- The handling of COMMIT PROFILE (R132). -/
theorem editsBoards.handleCommitProfile (s : State) (n : HostId) (q : Request) :
    editsBoards s (handleCommitProfile s n q).1 :=
  .profileEdit s n _ _ fun _ => .refl s

/-- The handling of REOPEN VOTE (R134). -/
theorem editsBoards.handleReopenVote (s : State) (n : HostId) (q : Request) :
    editsBoards s (handleReopenVote s n q).1 := by
  unfold Machine.handleReopenVote
  split
  · split
    · exact .reopenVote s n
    · exact .refl s
  · exact .refl s

/-- CLEAR ALL accepted (R113, R137). -/
theorem editsBoards.clearAll (s : State) (n : HostId) : editsBoards s (s.clearAll n) := by
  have hlapsed : editsBoards s
      (s.endVote.forHosts (lapsedBy s n) fun t m => t.putSession m ((t.sessions.get m).ended .lapsed)) :=
    .trans (.refl s) (.forHosts s.endVote _ _ fun t _ => .refl t)
  have hflagged (t : State) (m : HostId) :
      editsBoards t ((t.clearBoard m).flag m fun f => { f with lapsedCleared := true }) :=
    (editsBoards.clearBoard t m).trans (.flag _ m _)
  exact (hlapsed.trans (.freeAll _ _ _)).trans (.forHosts _ _ _ hflagged)

/-- The handling of CLEAR ALL (R137). -/
theorem editsBoards.handleClearAll (s : State) (n : HostId) (q : Request) : editsBoards s (handleClearAll s n q).1 := by
  unfold Machine.handleClearAll
  split
  · split
    · exact .clearAll s n
    · exact .refl s
  · split <;> exact .refl s

end Sys2Proof.Machine
end

section
/-! SUPPORT. The boards through every command: they stand, or are edited while RESETn is high, or are emptied by a reset. From it
follows that every step keeps ATTN right (R114). -/

namespace Sys2Proof.Machine

/-- The outcome is a next state to which the boards of `s` stand, RESETn not falling; or are edited, RESETn high; or in which they
are empty. -/
def boardsNext (s : State) (o : Host.Outcome State Fault Refusal) : Prop :=
  ∃ t, o = .next t
    ∧ ((t.boards = s.boards ∧ (t.resetn = false → s.resetn = false))
      ∨ (s.resetn = true ∧ editsBoards s t)
      ∨ ∀ h, t.boards.get h = Board.empty)

/-- A change that leaves RESETn and the boards. -/
theorem boardsNext.of_stands {s t : State} (hboards : t.boards = s.boards) (hresetn : t.resetn = s.resetn) :
    boardsNext s (.next t) := ⟨t, rfl, .inl ⟨hboards, hresetn.symm.trans⟩⟩

/-- A change that edits boards while RESETn is high. -/
theorem boardsNext.of_edits {s t : State} (hr : s.resetn = true) (h : editsBoards s t) : boardsNext s (.next t) :=
  ⟨t, rfl, .inr (.inl ⟨hr, h⟩)⟩

/-! ## Requests -/

/-- A request taken, and its answer, edit boards where the handling does. -/
theorem editsBoards.take (s : State) (n : HostId) (q : Request) {f : State → HostId → Request → State × Answer}
    (hf : ∀ t n q, editsBoards t (f t n q).1) : editsBoards s (s.take n q f) := by
  rcases s.take_cases n q f with ⟨st, _, heq⟩ | ⟨_, heq⟩ <;> rw [heq]
  · exact .refl s
  · exact (hf s n q).trans (.refl _)

/-- A block with an arbiter takes a request only while RESETn is high. -/
theorem boardsNext_takeChosen (s : State) (dt : Nat) (k : Kind) {f : State → HostId → Request → State × Answer}
    (hf : ∀ t n q, editsBoards t (f t n q).1) : boardsNext s (.next ((s.elapse dt).takeChosen k f)) := by
  rcases (s.elapse dt).takeChosen_cases k f with heq | ⟨n, q, ⟨hr, _⟩, heq⟩ <;> rw [heq]
  · exact .of_stands rfl rfl
  · have hserve : editsBoards s ((s.elapse dt).serve k.owner n) := by cases k <;> exact .refl s
    exact .of_edits hr (hserve.trans (.take _ n q hf))

/-- A block with an arbiter whose handling changes nothing. -/
theorem boardsNext_takeChosen_of_state (s : State) (dt : Nat) (k : Kind) {f : State → HostId → Request → State × Answer}
    (hf : ∀ t n q, (f t n q).1 = t) : boardsNext s (.next ((s.elapse dt).takeChosen k f)) :=
  boardsNext_takeChosen s dt k fun t n q => by rw [hf]; exact .refl t

/-- The Notice Board takes a request only while RESETn is high. -/
theorem boardsNext_takeFetch (s : State) (dt : Nat) (n : HostId) :
    boardsNext s (.next ((s.elapse dt).takeAt n .fetchNotices handleFetch)) := by
  rcases (s.elapse dt).takeAt_cases n .fetchNotices handleFetch with heq | ⟨q, hr, _, _, heq⟩ <;> rw [heq]
  · exact .of_stands rfl rfl
  · exact .of_edits hr (.trans (.refl s) (.take _ n q editsBoards.handleFetch))

/-- The Session Unit takes a request only while RESETn is high. -/
theorem boardsNext_takeSession (s : State) (dt : Nat) (n : HostId) (k : Kind)
    {f : State → HostId → Request → Session → State × Answer} (hf : ∀ t n q c, editsBoards t (f t n q c).1) :
    boardsNext s (.next ((s.elapse dt).takeSession n k f)) := by
  rcases (s.elapse dt).takeSession_cases n k f with heq | ⟨q, hr, _, _, ⟨st, _, heq⟩ | ⟨_, heq⟩⟩ <;> rw [heq]
  · exact .of_stands rfl rfl
  · exact .of_stands rfl rfl
  · have hrefresh : editsBoards s ((s.elapse dt).refresh n) := by
      rw [State.refresh_eq]
      exact .refl s
    exact .of_edits hr ((hrefresh.trans (hf _ n q _)).trans (.refl _))

/-! ## Transactions -/

/-- The judgement of a request handed on changes ports and sessions alone (R92, R93). -/
theorem State.judge_frame (s : State) (n : HostId) (f : Frame) (k : Kind) :
    s.judge n f k = { s with ports := (s.judge n f k).ports, sessions := (s.judge n f k).sessions } := by
  unfold State.judge
  split
  · rfl
  · split
    · rfl
    · rw [State.refresh_eq]
      rfl

/-- A well-formed frame received changes ports and sessions alone (R155, R156). -/
theorem State.acceptFrame_frame (s : State) (n : HostId) (f : Frame) :
    s.acceptFrame n f = { s with ports := (s.acceptFrame n f).ports, sessions := (s.acceptFrame n f).sessions } := by
  unfold State.acceptFrame
  split
  · split
    · rfl
    · split
      · exact s.judge_frame n f _
      · rfl
  · split
    · exact s.judge_frame n f _
    · rfl

/-- A transaction changes ports and sessions alone (R150 to R159). -/
theorem State.transact_frame (s : State) (n : HostId) (early : Bool) (bits : List Bool) :
    ∃ ports sessions, s.transact n early bits = { s with ports := ports, sessions := sessions } := by
  have frameEnd (t : State) (bits : List Bool) :
      ∃ ports sessions, t.frameEnd n bits = { t with ports := ports, sessions := sessions } := by
    unfold State.frameEnd
    split
    · exact ⟨_, _, rfl⟩
    · exact ⟨_, _, t.acceptFrame_frame n _⟩
  have write (bits : List Bool) :
      ∃ ports sessions, s.write n bits = { s with ports := ports, sessions := sessions } := by
    unfold State.write
    split
    · exact ⟨_, _, rfl⟩
    · exact ⟨_, _, rfl⟩
    · exact frameEnd _ bits
    · exact frameEnd _ bits
  unfold State.transact
  split
  · split
    · split
      · exact write _
      · split <;> exact ⟨_, _, rfl⟩
    · exact ⟨_, _, rfl⟩
  · exact ⟨_, _, rfl⟩

/-- A transaction touches no board. -/
theorem boardsNext_transact (s : State) (dt : Nat) (n : HostId) (early : Bool) (bits : List Bool) :
    boardsNext s (.next ((s.elapse dt).transact n early bits)) := by
  obtain ⟨ports, sessions, heq⟩ := (s.elapse dt).transact_frame n early bits
  rw [heq]
  exact .of_stands rfl rfl

/-! ## The RESETn pin, deadlines and ticks -/

/-- HARDWARE_RESET empties every board (R120). -/
theorem boardsNext_execHardwareReset (dt : Nat) (s : State) : boardsNext s (execHardwareReset dt s) :=
  ⟨_, rfl, .inr (.inr fun h => Table.get_fill 4 Board.empty h)⟩

/-- RESETN_RISE touches no board. -/
theorem boardsNext_execResetnRise (dt : Nat) (levels : LineSet) (s : State) : boardsNext s (execResetnRise dt levels s) := by
  unfold execResetnRise
  split
  · exact .of_stands rfl rfl
  · exact ⟨_, rfl, .inl ⟨rfl, fun hlow => Bool.noConfusion hlow⟩⟩

/-- SETTLE_END (R45). -/
theorem boardsNext_execSettleEnd (i : SlotId) (s : State) : boardsNext s (execSettleEnd i s) := by
  unfold execSettleEnd
  split
  · rename_i r hr _
    split
    · exact .of_edits hr ((editsBoards.reach s _).trans (.settleEnd _ i r))
    · exact .of_stands rfl rfl
  · exact .of_stands rfl rfl

/-- YIELD_END (R58). -/
theorem boardsNext_execYieldEnd (i : SlotId) (s : State) : boardsNext s (execYieldEnd i s) := by
  unfold execYieldEnd
  split
  · rename_i hr _
    split
    · exact .of_edits hr ((editsBoards.reach s _).trans (.freeAll _ [i] .revoked))
    · exact .of_stands rfl rfl
  · exact .of_stands rfl rfl

/-- WAIT_END (R41). -/
theorem boardsNext_execWaitEnd (i : SlotId) (s : State) : boardsNext s (execWaitEnd i s) := by
  unfold execWaitEnd
  split
  · rename_i hr _
    split
    · exact .of_edits hr ((editsBoards.reach s _).trans (.freeAll _ [i] .waitExpired))
    · exact .of_stands rfl rfl
  · exact .of_stands rfl rfl

/-- HEARTBEAT_EXPIRY (R99). -/
theorem boardsNext_execHeartbeatExpiry (n : HostId) (s : State) : boardsNext s (execHeartbeatExpiry n s) := by
  unfold execHeartbeatExpiry
  split
  · rename_i hr _ _
    exact .of_edits hr ((editsBoards.reach s _).trans (.lapse _ n))
  · exact .of_stands rfl rfl

/-- VOTE_DEADLINE (R136). -/
theorem boardsNext_execVoteDeadline (s : State) : boardsNext s (execVoteDeadline s) := by
  unfold execVoteDeadline
  split
  · rename_i d hr _ _
    exact .of_edits hr (.trans (t := (s.reach d).endVote) (.refl s) (.forHosts _ _ _ fun t m => .flag t m _))
  · exact .of_stands rfl rfl

/-- SAMPLING_TICK (R141). -/
theorem boardsNext_execSamplingTick (levels : LineSet) (s : State) : boardsNext s (execSamplingTick levels s) := by
  unfold execSamplingTick
  split
  · rename_i hr
    exact .of_edits hr (.tick s levels)
  · exact .of_stands rfl rfl

/-- BLANKING_END touches no board (R142). -/
theorem boardsNext_execBlankingEnd (l : LineId) (s : State) : boardsNext s (execBlankingEnd l s) := by
  unfold execBlankingEnd
  split <;> exact .of_stands rfl rfl

/-! ## Every command -/

/-- What a command can do to the boards: leave them, edit them while RESETn is high, or empty them. -/
theorem exec_boardsNext (c : Instr) (s : State) : boardsNext s (exec c s) := by
  cases c with
  | hardwareReset dt => exact boardsNext_execHardwareReset dt s
  | resetnRise dt levels => exact boardsNext_execResetnRise dt levels s
  | requestFrame dt n early bits => exact boardsNext_transact s dt n early _
  | readTransaction dt n early clocks => exact boardsNext_transact s dt n early _
  | ignoredTransaction dt n bits => exact boardsNext_transact s dt n false bits
  | status dt n => exact boardsNext_takeSession s dt n _ fun t n q c => by rw [handleStatus_state]; exact .refl t
  | attach dt n => exact boardsNext_takeSession s dt n _ editsBoards.handleAttach
  | detach dt n => exact boardsNext_takeSession s dt n _ editsBoards.handleDetach
  | heartbeat dt n => exact boardsNext_takeSession s dt n _ editsBoards.handleHeartbeat
  | claim dt => exact boardsNext_takeChosen s dt _ editsBoards.handleClaim
  | release dt => exact boardsNext_takeChosen s dt _ editsBoards.handleRelease
  | queryClaim dt => exact boardsNext_takeChosen_of_state s dt _ handleQueryClaim_state
  | setLevels dt => exact boardsNext_takeChosen s dt _ editsBoards.handleSetLevels
  | reconfigure dt => exact boardsNext_takeChosen s dt _ editsBoards.handleReconfigure
  | clearFault dt => exact boardsNext_takeChosen s dt _ editsBoards.handleClearFault
  | readLines dt => exact boardsNext_takeChosen_of_state s dt _ handleReadLines_state
  | queryLine dt => exact boardsNext_takeChosen_of_state s dt _ handleQueryLine_state
  | fetchNotices dt n => exact boardsNext_takeFetch s dt n
  | readProfile dt => exact boardsNext_takeChosen_of_state s dt _ handleReadProfile_state
  | setLineProfile dt => exact boardsNext_takeChosen s dt _ editsBoards.handleSetLineProfile
  | setBond dt => exact boardsNext_takeChosen s dt _ editsBoards.handleSetBond
  | setHostProfile dt => exact boardsNext_takeChosen s dt _ editsBoards.handleSetHostProfile
  | setTiming dt => exact boardsNext_takeChosen s dt _ editsBoards.handleSetTiming
  | commitProfile dt => exact boardsNext_takeChosen s dt _ editsBoards.handleCommitProfile
  | reopenVote dt => exact boardsNext_takeChosen s dt _ editsBoards.handleReopenVote
  | clearAll dt => exact boardsNext_takeChosen s dt _ editsBoards.handleClearAll
  | samplingTick levels => exact boardsNext_execSamplingTick levels s
  | blankingEnd l => exact boardsNext_execBlankingEnd l s
  | settleEnd i => exact boardsNext_execSettleEnd i s
  | yieldEnd i => exact boardsNext_execYieldEnd i s
  | waitEnd i => exact boardsNext_execWaitEnd i s
  | heartbeatExpiry n => exact boardsNext_execHeartbeatExpiry n s
  | voteDeadline => exact boardsNext_execVoteDeadline s

/-- What a step can do to the boards: an idle step leaves them, and any other is a command's. -/
theorem step_boardsNext (s : State) : boardsNext s (step s) := by
  unfold step
  split
  · exact .of_stands rfl rfl
  · exact exec_boardsNext _ { s with pending := _ }

/-- What leaves, edits or empties the boards keeps ATTN right (R114, R120). -/
theorem boardsNext.attnRight {s t : State} (hnext : boardsNext s (.next t)) (h : s.attnRight) : t.attnRight := by
  obtain ⟨u, hu, hboards⟩ := hnext
  cases hu
  intro n
  obtain ⟨hattn, hbare⟩ := h n
  rcases hboards with ⟨hstands, hfall⟩ | ⟨hr, hresetn, hedits⟩ | hempty
  · rw [hstands]
    exact ⟨hattn, hbare ∘ hfall⟩
  · refine ⟨Board.attnFollows.edited hattn (hedits n), fun hlow => ?_⟩
    rw [hresetn, hr] at hlow
    exact Bool.noConfusion hlow
  · rw [hempty n]
    exact ⟨Board.attnFollows_empty, fun _ => ⟨rfl, rfl, rfl, rfl, rfl⟩⟩

/-- Settles O53: whatever writes a board sets its ATTN with it, nothing writes one while RESETn is low but a reset, and bit 4 of the
status byte is read off the board. -/
theorem everyStepKeepsAttn : Obligations.EveryStepKeepsAttn := by
  unfold Obligations.EveryStepKeepsAttn
  intro s t h hstep
  have hright : t.attnRight := boardsNext.attnRight (hstep ▸ step_boardsNext s) h
  refine ⟨hright, fun n => ?_⟩
  obtain ⟨hattn, _⟩ := hright n
  rw [statusByte_attn, Bool.eq_iff_iff, hattn, ← Board.isEmpty_iff]
  simp

end Sys2Proof.Machine
end

section
/-! SUPPORT. What FETCH NOTICES returns and what it leaves (R115 to R117). -/

namespace Sys2Proof.Machine

/-- The session flags' byte, bit by bit (R161). -/
theorem SessionFlags.byte_eq (f : SessionFlags) :
    f.byte =
      (if f.lapsedHeartbeat then 1#8 else 0#8) ||| (if f.lapsedCleared then 2#8 else 0#8)
        ||| (if f.voteOpen then 4#8 else 0#8) ||| (if f.profileOpened then 8#8 else 0#8)
        ||| (if f.voteFailed then 16#8 else 0#8) := rfl

/-- The count byte of a fetch: how many notices it returns, and MORE in bit 7 (R116). -/
theorem Board.countByte_eq (b : Board) :
    natByte b.returned.length ||| flagBit b.more 7 =
      BitVec.ofNat 8 (min 12 b.notices.length) ||| (if 12 < b.notices.length then 0x80#8 else 0#8) := by
  have hcount : natByte b.returned.length = BitVec.ofNat 8 (min 12 b.notices.length) := by
    rw [natByte, Board.returned, List.length_take, fetchLimit]
  have hmore : flagBit b.more 7 = if 12 < b.notices.length then 0x80#8 else 0#8 := by
    by_cases h : 12 < b.notices.length <;> simp [flagBit, Board.more, fetchLimit, h]
  rw [hcount, hmore]

/-- The payload of a fetch, field by field (R116, R161). -/
theorem fetchPayload_eq (b : Board) :
    fetchPayload b =
      [b.flags.byte] ++ sentLines b.change ++ sentLines b.overrun ++ sentLines b.fault
        ++ [BitVec.ofNat 8 (min 12 b.notices.length) ||| (if 12 < b.notices.length then 0x80#8 else 0#8)]
        ++ (b.notices.take 12).flatMap fun x => [x.1, x.2.code] := by
  rw [fetchPayload, Board.countByte_eq, lineSetBytes_eq, lineSetBytes_eq, lineSetBytes_eq]
  rfl

/-- What a fetch leaves in place: the notices beyond the twelve returned, with ATTN asserted where there are any (R114, R117). -/
theorem State.editBoard_fetched (s : State) (n : HostId) :
    (s.editBoard n Board.fetched).boards.get n =
      { notices := (s.boards.get n).notices.drop 12, change := 0#48, overrun := 0#48, fault := 0#48
        flags := SessionFlags.clear, attn := decide (12 < (s.boards.get n).notices.length) } := by
  have hempty : (s.boards.get n).fetched.isEmpty = !decide (12 < (s.boards.get n).notices.length) := by
    rw [Bool.eq_iff_iff, Board.isEmpty_iff]
    simp [Board.bare, Board.fetched, Board.empty, fetchLimit]
  rw [State.editBoard_boards, Table.get_set_self, hempty, Bool.not_not]
  rfl

/-- The Notice Board handles and answers the request it takes, while its session stands, LAPSED or ATTACHED (R94, R115). -/
theorem State.takeAt_fetch {s : State} {n : HostId} {q : Request} (hr : s.resetn = true) (hwaits : s.waits n q)
    (hkind : q.kind = .fetchNotices) (hstate : (s.sessions.get n).state ≠ .detached)
    (hepoch : q.epoch = (s.sessions.get n).epoch) (f : State → HostId → Request → State × Answer) :
    s.takeAt n .fetchNotices f = (f s n q).1.reply n q (f s n q).2 := by
  have hpass : recheck (s.sessions.get n) q.kind q.epoch = none := by
    refine (recheck_eq_none _ _ _).mpr ⟨hepoch, ?_⟩
    cases hs : (s.sessions.get n).state with
    | attached => exact .inl rfl
    | lapsed => exact .inr ⟨rfl, hkind⟩
    | detached => exact absurd hs hstate
  have htaken : s.takeAt n .fetchNotices f = s.take n q f := by
    simp [State.takeAt, hr, (s.inHand_eq_some n q).mpr hwaits, hkind]
  simp [htaken, State.take, hpass]

/-- A reply from a state with the ports of `s` posts the answer to its port alone (R156). -/
theorem posts_reply {s u : State} (hports : u.ports = s.ports) (n : HostId) (q : Request) {a : Answer}
    {payload : List Byte} (h : a.payload = payload) : posts s (u.reply n q a) n q a.status payload := by
  subst h
  refine ⟨?_, fun m hm => ?_⟩
  · simp [hports, Port.answer, Request.signature, kind_code_eq]
  · simp [hports, Table.get_set_ne, hm]

/-- Settles O41: the request passes the recheck in ATTACHED and in LAPSED, and its handling writes the host's own board alone. -/
theorem fetchReturnsAndClears : Obligations.FetchReturnsAndClears := by
  unfold Obligations.FetchReturnsAndClears
  intro s dt n q hr hwaits hkind hstate hepoch
  refine ⟨_, congrArg Host.Outcome.next (State.takeAt_fetch (s := s.elapse dt) hr hwaits hkind hstate hepoch handleFetch), ?_⟩
  unfold handleFetch
  split
  · refine ⟨rfl, fun h hne => Table.get_set_ne _ _ hne, State.editBoard_fetched s n, posts_reply rfl n q ?_⟩
    rw [State.elapse_boards, fetchPayload_eq, SessionFlags.byte_eq]
    rfl
  · exact ⟨rfl, fun _ _ => rfl, rfl, posts_reply rfl n q rfl⟩

end Sys2Proof.Machine
end

section
/-! SUPPORT. The CRC-8 (R154): its register over bits taken one by one and over a byte taken whole, and the bytes it covers. -/

namespace Sys2Proof

/-! ## The register -/

/-- The top `k` bits of a byte, most significant first, each shifted to the top in its turn. -/
def topBits : Nat → Byte → List Bool
  | 0, _ => []
  | k + 1, b => b.getLsbD 7 :: topBits k (b <<< 1)

/-- A byte's bits are its top eight. -/
theorem bitsOfByte_eq_topBits (b : Byte) : bitsOfByte b = topBits 8 b := by
  simp [bitsOfByte, topBits]

/-- One bit of the rule, as the shift and the generator that the bit leaving the register and the message bit decide (R154). -/
theorem crcBit_eq (reg : Byte) (bit : Bool) :
    crcBit reg bit = (reg <<< 1) ^^^ (if (reg.getLsbD 7 ^^ bit) = true then 0x07#8 else 0#8) := by
  unfold crcBit
  split <;> simp

/-- A message's top bit taken, its rest combined afterwards, is the message combined first and a 0 taken. -/
theorem crcBit_xor_shift (reg b : Byte) : crcBit reg (b.getLsbD 7) ^^^ (b <<< 1) = crcBit (reg ^^^ b) false := by
  rw [crcBit_eq, crcBit_eq, BitVec.shiftLeft_xor_distrib, BitVec.getLsbD_xor, Bool.xor_false, BitVec.xor_assoc,
    BitVec.xor_assoc, BitVec.xor_comm (b <<< 1)]

/-- The top `k` bits of a byte taken one by one, and the rest of it combined afterwards, are the byte combined first and `k` 0s
taken. -/
theorem foldl_crcBit_topBits (k : Nat) (reg b : Byte) :
    (topBits k b).foldl crcBit reg ^^^ (b <<< k) = (List.replicate k false).foldl crcBit (reg ^^^ b) := by
  induction k generalizing reg b with
  | zero => simp [topBits]
  | succ k ih =>
    rw [topBits, List.foldl_cons, List.replicate_succ, List.foldl_cons, ← crcBit_xor_shift, ← ih, ← BitVec.shiftLeft_add,
      Nat.add_comm]

/-- A byte taken bit by bit gives what the byte taken whole does (R154). -/
theorem foldl_crcBit_bitsOfByte (reg b : Byte) :
    (bitsOfByte b).foldl crcBit reg = (List.replicate 8 false).foldl crcBit (reg ^^^ b) := by
  have hshift : b <<< 8 = 0#8 := BitVec.shiftLeft_eq_zero (Nat.le_refl 8)
  rw [bitsOfByte_eq_topBits, ← foldl_crcBit_topBits 8, hshift, BitVec.xor_zero]

/-- One more byte of a message is taken by the register the message so far leaves (R154). -/
theorem crc8_append_byte (bs : List Byte) (b : Byte) : crc8 (bs ++ [b]) = (bitsOfByte b).foldl crcBit (crc8 bs) := by
  simp [crc8, bitsOf]

end Sys2Proof

namespace Sys2Proof.Machine

/-! ## The frames -/

/-- The bytes of a response, each status by its number in R161's table (R157). -/
theorem Response.bytes_eq (r : Response) :
    r.bytes =
      [BitVec.ofNat 8 r.status.number, r.seq, BitVec.ofNat 8 r.payload.length] ++ r.payload
        ++ [crc8 ([BitVec.ofNat 8 r.status.number, r.seq, BitVec.ofNat 8 r.payload.length] ++ r.payload)] := by
  rw [← status_code_eq]
  rfl

/-- Settles O6: the generator is linear, so a byte combined with the register before eight 0s stands for its bits taken one by one. -/
theorem crcFollowsItsGenerator : Obligations.CrcFollowsItsGenerator := by
  unfold Obligations.CrcFollowsItsGenerator
  refine ⟨rfl, crc8_append_byte, fun reg bit => ?_, foldl_crcBit_bitsOfByte, fun _ => rfl, Response.bytes_eq, by decide +kernel⟩
  rw [crcBit, Bool.bne_eq_xor]

end Sys2Proof.Machine
end

section
/-! SUPPORT. What a read transaction shifts out, and what it leaves of the port (R157 to R159). -/

namespace Sys2Proof.Machine

/-! ## The link status byte -/

/-- A flag shows in its own bit and in no other. -/
theorem getLsbD_flagBit (x : Bool) (i : Nat) {j : Nat} (hj : j < 8) : (flagBit x i).getLsbD j = (x && decide (j = i)) := by
  cases x with
  | false => simp [flagBit]
  | true =>
    rw [Bool.eq_iff_iff]
    simp [flagBit, hj]
    omega

/-- The link status byte, bit by bit, ATTN apart (R157). -/
theorem statusByte_bits (p : Port) (b : Board) :
    (statusByte p b).getLsbD 0 = decide (p.link = .answered)
      ∧ (statusByte p b).getLsbD 1 = decide (p.link = .pending)
      ∧ (statusByte p b).getLsbD 2 = p.dropped
      ∧ (statusByte p b).getLsbD 3 = (decide (p.link = .answered) && p.replay)
      ∧ (statusByte p b).getLsbD 5 = false ∧ (statusByte p b).getLsbD 6 = false ∧ (statusByte p b).getLsbD 7 = false := by
  simp only [statusByte, BitVec.getLsbD_or, getLsbD_flagBit, Nat.reduceLT, beq_eq_decide]
  simp

/-! ## What is shifted out -/

/-- What the clocks shift out of a stream: the stream and then 1s, as far as they reach (R157, R158). -/
theorem shifted_eq (stream : List Byte) (clocks : Nat) :
    shifted stream clocks = (bitsOf stream ++ List.replicate clocks true).take clocks := by
  rw [shifted, ones, List.take_append, List.take_replicate, Nat.min_eq_left (Nat.sub_le _ _)]

/-- A response frame is four bytes longer than its payload (R157). -/
@[simp] theorem Response.length_bytes (r : Response) : r.bytes.length = 4 + r.payload.length := by
  simp [Response.bytes]
  omega

/-! ## What is left of the port -/

/-- DROPPED after a read, whether or not the status byte was shifted out whole (R159). -/
theorem Port.reported_eq (p : Port) (clocks : Nat) :
    p.reported clocks = { p with dropped := p.dropped && decide (clocks < 8) } := by
  unfold Port.reported
  by_cases h : 8 ≤ clocks
  · simp [h, Nat.not_lt.mpr h]
  · simp [h, Nat.lt_of_not_le h]

/-- The report of DROPPED leaves the link state (R159). -/
@[simp] theorem Port.reported_link (p : Port) (clocks : Nat) : (p.reported clocks).link = p.link := by
  rw [Port.reported_eq]

/-- The report of DROPPED leaves the response (R159). -/
@[simp] theorem Port.reported_response (p : Port) (clocks : Nat) : (p.reported clocks).response = p.response := by
  rw [Port.reported_eq]

/-- A response read to its last bit leaves the port; one cut short stays (R158). -/
theorem Port.consumed_of_answered {p : Port} {r : Response} (hlink : p.link = .answered) (hresponse : p.response = some r)
    (clocks : Nat) :
    p.consumed clocks =
      { p with
        link := if 8 + 8 * (4 + r.payload.length) ≤ clocks then .idle else .answered
        response := if 8 + 8 * (4 + r.payload.length) ≤ clocks then none else some r
        replay := if 8 + 8 * (4 + r.payload.length) ≤ clocks then false else p.replay } := by
  simp only [Port.consumed, hlink, hresponse, Response.length_bytes]
  split
  · rfl
  · rw [← hlink, ← hresponse]

/-- Where no response is READY, none is consumed (R158). -/
theorem Port.consumed_of_not_answered {p : Port} (h : ∀ r, p.link = .answered → p.response ≠ some r) (clocks : Nat) :
    p.consumed clocks = p := by
  unfold Port.consumed
  split
  · rename_i r hlink hresponse
    exact absurd hresponse (h r hlink)
  · rfl

/-- What a port with a READY response offers a read: the status byte, and the response frame (R157). -/
theorem readStream_of_answered {p : Port} {r : Response} (hlink : p.link = .answered) (hresponse : p.response = some r)
    (b : Board) : readStream p b = statusByte p b :: r.bytes := by
  simp [readStream, hlink, hresponse]

/-- What a port with no READY response offers a read: the status byte alone (R157). -/
theorem readStream_of_not_answered {p : Port} (h : ∀ r, p.link = .answered → p.response ≠ some r) (b : Board) :
    readStream p b = [statusByte p b] := by
  unfold readStream
  split
  · rename_i r hlink hresponse
    exact absurd hresponse (h r hlink)
  · rfl

/-- A read that meets RESETn high is one of as many clocks as the command gives (R150). -/
theorem exec_readTransaction {s : State} (hr : s.resetn = true) (dt : Nat) (n : HostId) (clocks : Nat) :
    exec (.readTransaction dt n false clocks) s = .next ((s.elapse dt).read n clocks) := by
  change Host.Outcome.next ((s.elapse dt).transact n false (readOpener ++ List.replicate clocks false)) = _
  rw [State.transact_read, State.elapse_resetn, hr, List.length_replicate]
  rfl

/-- A read writes its own port: the record of SDO, and what the clocks reported and consumed (R157 to R159). -/
theorem State.read_ports (s : State) (n : HostId) (clocks : Nat) :
    (s.read n clocks).ports =
      s.ports.set n
        { ((s.ports.get n).reported clocks).consumed clocks with
          sdo := ones 8 ++ shifted (readStream (s.ports.get n) (s.boards.get n)) clocks } := rfl

/-- Settles O12: the stream of a read is the status byte and, where a response is READY, its frame; the two cases of the statement
are the two cases of the stream. -/
theorem readShiftsStatusAndResponse : Obligations.ReadShiftsStatusAndResponse := by
  unfold Obligations.ReadShiftsStatusAndResponse
  intro s dt n clocks hr
  obtain ⟨hready, hpending, hdropped, hreplay, hbit5, hbit6, hbit7⟩ := statusByte_bits (s.ports.get n) (s.boards.get n)
  have hattn : (statusByte (s.ports.get n) (s.boards.get n)).getLsbD 4 = true ↔ ¬ (s.boards.get n).bare := by
    rw [statusByte_attn, ← Board.isEmpty_iff]
    simp
  refine ⟨_, _, exec_readTransaction hr dt n clocks, rfl, fun m hm => Table.get_set_ne _ _ hm, hready, hpending, hdropped,
    hreplay, hattn, hbit5, hbit6, hbit7, ?_⟩
  rw [State.read_ports, Table.get_set_self, State.elapse_ports, State.elapse_boards, shifted_eq, ones]
  split
  · rename_i r hlink hresponse
    rw [Port.consumed_of_answered ((Port.reported_link _ _).trans hlink) ((Port.reported_response _ _).trans hresponse),
      readStream_of_answered hlink hresponse, Response.bytes_eq, Port.reported_eq]
  · rename_i hnone
    have hkept : ((s.ports.get n).reported clocks).consumed clocks = (s.ports.get n).reported clocks :=
      Port.consumed_of_not_answered (by simpa using hnone) clocks
    rw [hkept, readStream_of_not_answered hnone, Port.reported_eq]

end Sys2Proof.Machine
end

section
/-! SUPPORT. What leaves the link ports as they are: the operations of the blocks and their handlings of requests, of which a port
sees the answer alone. -/

namespace Sys2Proof.Machine

/-! ## Shared operations -/

/-- What the Claim Table Controller writes touches no port. -/
theorem tableOnly.ports {s t : State} (h : tableOnly s t) : t.ports = s.ports := by
  rw [h.1]

/-- A list of operations that each leave the ports leaves them. -/
theorem foldl_ports {α : Type} (f : State → α → State) (h : ∀ s a, (f s a).ports = s.ports) (l : List α) (s : State) :
    (l.foldl f s).ports = s.ports := by
  induction l generalizing s with
  | nil => rfl
  | cons a l ih => rw [List.foldl_cons, ih, h]

/-- An operation that leaves the ports leaves them for each host of a set. -/
theorem State.forHosts_ports (s : State) (w : HostSet) (f : State → HostId → State)
    (h : ∀ t n, (f t n).ports = t.ports) : (s.forHosts w f).ports = s.ports :=
  State.forHosts_induct (fun t => t.ports = s.ports) s w f rfl fun t n _ ht => (h t n).trans ht

/-- A freeing of a list of slots, and the evaluations after it (R7). -/
@[simp] theorem State.freeAll_ports (s : State) (l : List SlotId) (cause : FreeCause) :
    (s.freeAll l cause).ports = s.ports := (tableOnly.freeAll s l cause).ports

/-- A freeing of every record of a host (R9). -/
@[simp] theorem State.freeHost_ports (s : State) (h : HostId) : (s.freeHost h).ports = s.ports :=
  (tableOnly.freeHost s h).ports

/-- A settle end (R45, R54). -/
@[simp] theorem State.settleEnd_ports (s : State) (i : SlotId) (r : Record) : (s.settleEnd i r).ports = s.ports := by
  have henter : tableOnly s (s.enterHeld i r) := .enterHeld s i r
  unfold State.settleEnd
  split
  · exact (henter.trans (.enterYielding _ i _)).ports
  · exact ((henter.trans (.post _ _ _ _)).trans (.eligibility _)).ports

/-- A sampling tick (R75). -/
@[simp] theorem State.tick_ports (s : State) (levels : LineSet) : (s.tick levels).ports = s.ports := by
  rw [State.tick, State.mapCells_ports, foldl_ports]
  exact fun t h => t.editBoard_ports h _

/-- A refresh moves a deadline of a session (R93). -/
@[simp] theorem State.refresh_ports (s : State) (h : HostId) : (s.refresh h).ports = s.ports := by
  rw [State.refresh_eq, State.putSession_ports]

/-! ## The vote -/

/-- The completion test (R135). -/
@[simp] theorem State.completionTest_ports (s : State) : s.completionTest.ports = s.ports := by
  rw [State.completionTest_frame]

/-- The report of a host that joins (R135). -/
@[simp] theorem State.hostJoined_ports (s : State) (h : HostId) : (s.hostJoined h).ports = s.ports := by
  unfold State.hostJoined
  split
  · exact State.completionTest_ports _
  · rfl

/-- The report of a host that leaves (R135). -/
@[simp] theorem State.hostLeft_ports (s : State) (h : HostId) : (s.hostLeft h).ports = s.ports := by
  unfold State.hostLeft
  split
  · exact State.completionTest_ports _
  · rfl

/-- The report of a host that restarts (R135). -/
@[simp] theorem State.hostRestarted_ports (s : State) (h : HostId) : (s.hostRestarted h).ports = s.ports := by
  unfold State.hostRestarted
  split
  · exact State.completionTest_ports _
  · rfl

/-- A vote cast while COMMITTED (R134). -/
@[simp] theorem State.reopenVote_ports (s : State) (n : HostId) : (s.reopenVote n).ports = s.ports := by
  unfold State.reopenVote
  split
  · split
    · rfl
    · exact State.completionTest_ports _
  · rw [State.startVote, State.completionTest_ports, State.forHosts_ports _ _ State.postVoteOpen fun _ _ => rfl,
      State.setVoted_ports]

/-! ## Sessions -/

/-- A lapse (R99). -/
@[simp] theorem State.lapse_ports (s : State) (h : HostId) : (s.lapse h).ports = s.ports := by
  simp [State.lapse, State.flag]

/-- The handling of ATTACH (R95, R96). -/
theorem handleAttach_ports (s : State) (n : HostId) (q : Request) (c : Session) :
    (handleAttach s n q c).1.ports = s.ports := by
  unfold handleAttach
  split
  · rfl
  · dsimp only
    split
    · simp [State.restartSession]
    · simp [State.beginSession]

/-- The handling of DETACH (R100). -/
theorem handleDetach_ports (s : State) (n : HostId) (q : Request) (c : Session) :
    (handleDetach s n q c).1.ports = s.ports := by
  unfold handleDetach
  split
  · dsimp only
    split
    · simp [State.detachAttached]
    · simp [State.detachLapsed]
  · rfl

/-- The handling of HEARTBEAT (R98). -/
theorem handleHeartbeat_ports (s : State) (n : HostId) (q : Request) (c : Session) :
    (handleHeartbeat s n q c).1.ports = s.ports := by
  unfold handleHeartbeat
  split
  · rfl
  · split <;> rfl

/-- The handling of FETCH NOTICES (R117). -/
theorem handleFetch_ports (s : State) (n : HostId) (q : Request) : (handleFetch s n q).1.ports = s.ports := by
  unfold handleFetch
  split <;> rfl

/-! ## The claim table -/

/-- The handling of CLAIM (R15, R21). -/
theorem handleClaim_ports (s : State) (n : HostId) (q : Request) : (handleClaim s n q).1.ports = s.ports := by
  have admitClaim (a : ClaimArgs) (i : SlotId) : (s.admitClaim n a i).1.ports = s.ports := by
    unfold State.admitClaim
    split
    · exact ((tableOnly.grantInto s i _).trans (.eligibility _)).ports
    · split
      · rfl
      · exact ((tableOnly.putRecord s i _).trans (.evaluate _)).ports
  unfold handleClaim
  split
  · rfl
  · split
    · rfl
    · exact admitClaim _ _
    · rfl

/-- The handling of RELEASE (R23). -/
theorem handleRelease_ports (s : State) (n : HostId) (q : Request) : (handleRelease s n q).1.ports = s.ports := by
  unfold handleRelease
  split
  · rfl
  · split
    · rfl
    · exact s.freeAll_ports _ _

/-! ## The line cells -/

/-- The handling of SET LEVELS (R83, R84). -/
theorem handleSetLevels_ports (s : State) (n : HostId) (q : Request) : (handleSetLevels s n q).1.ports = s.ports := by
  have applyLevels (i : SlotId) (r : Record) (a : LevelArgs) : (s.applyLevels i r a).1.ports = s.ports := by
    unfold State.applyLevels
    split
    · rfl
    · split <;> rfl
  unfold handleSetLevels
  split
  · rfl
  · split
    · rfl
    · split
      · split
        · exact applyLevels _ _ _
        · rfl
      · rfl

/-- The handling of RECONFIGURE (R83, R85). -/
theorem handleReconfigure_ports (s : State) (n : HostId) (q : Request) :
    (handleReconfigure s n q).1.ports = s.ports := by
  unfold handleReconfigure
  split
  · rfl
  · split
    · rfl
    · split
      · rfl
      · split <;> rfl

/-- The handling of CLEAR FAULT (R83, R86). -/
theorem handleClearFault_ports (s : State) (n : HostId) (q : Request) : (handleClearFault s n q).1.ports = s.ports := by
  unfold handleClearFault
  split
  · rfl
  · split
    · rfl
    · split
      · split <;> rfl
      · rfl

/-! ## The profile -/

/-- A profile edit leaves the ports where the edit made does. -/
theorem profileEdit_ports {α : Type} (s : State) (n : HostId) (args : Option α) (f : α → State × Answer)
    (h : ∀ a, (f a).1.ports = s.ports) : (profileEdit s n args f).1.ports = s.ports := by
  rcases profileEdit_cases s n args f with ⟨st, hst⟩ | ⟨a, _, ha⟩
  · rw [hst]
  · rw [ha, h]

/-- The handling of SET LINE PROFILE (R124 to R126). -/
theorem handleSetLineProfile_ports (s : State) (n : HostId) (q : Request) :
    (handleSetLineProfile s n q).1.ports = s.ports :=
  profileEdit_ports _ _ _ _ fun es => by
    dsimp only [State.applyLineProfile]
    split
    · rfl
    · exact State.freeAll_ports _ _ _

/-- The handling of SET BOND (R128). -/
theorem handleSetBond_ports (s : State) (n : HostId) (q : Request) : (handleSetBond s n q).1.ports = s.ports :=
  profileEdit_ports _ _ _ _ fun a => by split <;> rfl

/-- The handling of SET HOST PROFILE (R129, R130). -/
theorem handleSetHostProfile_ports (s : State) (n : HostId) (q : Request) :
    (handleSetHostProfile s n q).1.ports = s.ports :=
  profileEdit_ports _ _ _ _ fun a => by
    split
    · rfl
    · split <;> rfl

/-- The handling of SET TIMING (R147). -/
theorem handleSetTiming_ports (s : State) (n : HostId) (q : Request) : (handleSetTiming s n q).1.ports = s.ports :=
  profileEdit_ports _ _ _ _ fun _ => rfl

/-- The handling of COMMIT PROFILE (R132). -/
theorem handleCommitProfile_ports (s : State) (n : HostId) (q : Request) :
    (handleCommitProfile s n q).1.ports = s.ports :=
  profileEdit_ports _ _ _ _ fun _ => rfl

/-- The handling of REOPEN VOTE (R134). -/
theorem handleReopenVote_ports (s : State) (n : HostId) (q : Request) : (handleReopenVote s n q).1.ports = s.ports := by
  unfold handleReopenVote
  split
  · split
    · exact s.reopenVote_ports n
    · rfl
  · rfl

/-- The handling of CLEAR ALL (R137). -/
theorem handleClearAll_ports (s : State) (n : HostId) (q : Request) : (handleClearAll s n q).1.ports = s.ports := by
  have clearAll : (s.clearAll n).ports = s.ports := by
    have lapsed : (s.endVote.forHosts (lapsedBy s n) fun t h =>
        t.putSession h ((t.sessions.get h).ended .lapsed)).ports = s.ports :=
      State.forHosts_ports s.endVote _ _ fun _ _ => rfl
    unfold State.clearAll
    dsimp only
    rw [State.forHosts_ports, State.freeAll_ports, lapsed]
    exact fun _ _ => rfl
  unfold handleClearAll
  split
  · split
    · exact clearAll
    · rfl
  · split <;> rfl

end Sys2Proof.Machine
end

section
/-! SUPPORT. DROPPED through every command (R151, R159): a dropped write sets it, a status byte read whole and a hardware reset clear
it, and nothing else moves it. -/

namespace Sys2Proof.Machine

/-! ## Ports put in place -/

/-- From `s` to `t` DROPPED stands at every port. -/
def keepsDropped (s t : State) : Prop := ∀ n, (t.ports.get n).dropped = (s.ports.get n).dropped

/-- A change that leaves the ports. -/
theorem keepsDropped.of_ports {s t : State} (h : t.ports = s.ports) : keepsDropped s t := fun n => by rw [h]

/-- One change that keeps DROPPED follows another. -/
theorem keepsDropped.trans {s t u : State} (h1 : keepsDropped s t) (h2 : keepsDropped t u) : keepsDropped s u :=
  fun n => (h2 n).trans (h1 n)

/-- DROPPED at each port, one port being put in place. -/
theorem State.putPort_dropped (s : State) (m n : HostId) (p : Port) :
    ((s.putPort m p).ports.get n).dropped = if n = m then p.dropped else (s.ports.get n).dropped := by
  rw [State.putPort_ports, Table.get_set]
  split <;> rfl

/-- A port put in place of one with the same DROPPED. -/
theorem keepsDropped.putPort (s : State) (m : HostId) {p : Port} (h : p.dropped = (s.ports.get m).dropped) :
    keepsDropped s (s.putPort m p) := fun n => by
  rw [State.putPort_dropped]
  split
  · rename_i hn
    rw [hn, h]
  · rfl

/-- An answer posted (R156). -/
theorem keepsDropped.reply (s : State) (n : HostId) (q : Request) (a : Answer) : keepsDropped s (s.reply n q a) :=
  .putPort s n rfl

/-! ## Requests -/

/-- A request taken, and its answer. -/
theorem keepsDropped.take (s : State) (n : HostId) (q : Request) {f : State → HostId → Request → State × Answer}
    (hf : ∀ t n q, (f t n q).1.ports = t.ports) : keepsDropped s (s.take n q f) := by
  rcases s.take_cases n q f with ⟨st, _, heq⟩ | ⟨_, heq⟩ <;> rw [heq]
  · exact .reply s n q _
  · exact (keepsDropped.of_ports (hf s n q)).trans (.reply _ n q _)

/-- A block with an arbiter takes a request, or nothing. -/
theorem keepsDropped.takeChosen (s : State) (k : Kind) {f : State → HostId → Request → State × Answer}
    (hf : ∀ t n q, (f t n q).1.ports = t.ports) : keepsDropped s (s.takeChosen k f) := by
  rcases s.takeChosen_cases k f with heq | ⟨n, q, _, heq⟩ <;> rw [heq]
  · exact .of_ports rfl
  · exact (keepsDropped.of_ports (s.serve_ports k.owner n)).trans (.take _ n q hf)

/-- A block with an arbiter whose handling changes nothing. -/
theorem keepsDropped.takeChosen_of_state (s : State) (k : Kind) {f : State → HostId → Request → State × Answer}
    (hf : ∀ t n q, (f t n q).1 = t) : keepsDropped s (s.takeChosen k f) :=
  .takeChosen s k fun t n q => by rw [hf]

/-- The Notice Board takes a request, or nothing. -/
theorem keepsDropped.takeFetch (s : State) (n : HostId) : keepsDropped s (s.takeAt n .fetchNotices handleFetch) := by
  rcases s.takeAt_cases n .fetchNotices handleFetch with heq | ⟨q, _, _, _, heq⟩ <;> rw [heq]
  · exact .of_ports rfl
  · exact .take s n q handleFetch_ports

/-- The Session Unit takes a request, or nothing. -/
theorem keepsDropped.takeSession (s : State) (n : HostId) (k : Kind)
    {f : State → HostId → Request → Session → State × Answer} (hf : ∀ t n q c, (f t n q c).1.ports = t.ports) :
    keepsDropped s (s.takeSession n k f) := by
  rcases s.takeSession_cases n k f with heq | ⟨q, _, _, _, ⟨st, _, heq⟩ | ⟨_, heq⟩⟩ <;> rw [heq]
  · exact .of_ports rfl
  · exact .reply s n q _
  · exact (keepsDropped.of_ports ((hf _ n q _).trans (s.refresh_ports n))).trans (.reply _ n q _)

/-! ## Transactions -/

/-- The judgement of a request handed on (R92). -/
theorem keepsDropped.judge (s : State) (n : HostId) (f : Frame) (k : Kind) : keepsDropped s (s.judge n f k) := by
  unfold State.judge
  split
  · exact .reply s n _ _
  · split
    · exact .putPort s n rfl
    · exact (keepsDropped.of_ports (s.refresh_ports n)).trans (.putPort _ n (by rw [State.refresh_ports]; rfl))

/-- A well-formed frame received (R155, R156). -/
theorem keepsDropped.acceptFrame (s : State) (n : HostId) (f : Frame) : keepsDropped s (s.acceptFrame n f) := by
  unfold State.acceptFrame
  split
  · split
    · exact .putPort s n rfl
    · split
      · exact .judge s n f _
      · exact .putPort s n rfl
  · split
    · exact .judge s n f _
    · exact .putPort s n rfl

/-- A write accepted, its frame received and checked (R151, R153). -/
theorem keepsDropped.received (s : State) (n : HostId) (bits : List Bool) :
    keepsDropped s ((s.putPort n ((s.ports.get n).receive bits)).frameEnd n bits) := by
  have received : keepsDropped s (s.putPort n ((s.ports.get n).receive bits)) := .putPort s n rfl
  refine received.trans ?_
  unfold State.frameEnd
  split
  · exact .putPort _ n rfl
  · exact .acceptFrame _ n _

/-- A transaction that meets RESETn low, or was begun before it rose (R150). -/
theorem keepsDropped.undriven (s : State) (n : HostId) : keepsDropped s (s.undriven n) := .putPort s n rfl

/-- A transaction ignored (R150). -/
theorem keepsDropped.ignore (s : State) (n : HostId) (k : Nat) : keepsDropped s (s.ignore n k) := .putPort s n rfl

/-- A write in PENDING or ANSWERED is dropped (R151). -/
theorem State.write_of_busy {s : State} {n : HostId} (h : (s.ports.get n).link = .pending ∨ (s.ports.get n).link = .answered)
    (bits : List Bool) : s.write n bits = s.putPort n ((s.ports.get n).drop (8 + bits.length)) := by
  unfold State.write
  rcases h with h | h <;> rw [h]

/-- A write in another state is received (R151). -/
theorem State.write_of_not_busy {s : State} {n : HostId}
    (h : ¬ ((s.ports.get n).link = .pending ∨ (s.ports.get n).link = .answered)) (bits : List Bool) :
    s.write n bits = (s.putPort n ((s.ports.get n).receive bits)).frameEnd n bits := by
  unfold State.write
  split <;> simp_all

/-- DROPPED after a write: set at the port where the write was dropped (R151, R159). -/
theorem State.write_dropped (s : State) (m n : HostId) (bits : List Bool) :
    ((s.write m bits).ports.get n).dropped =
      ((s.ports.get n).dropped
        || decide (m = n ∧ ((s.ports.get n).link = .pending ∨ (s.ports.get n).link = .answered))) := by
  by_cases hbusy : (s.ports.get m).link = .pending ∨ (s.ports.get m).link = .answered
  · rw [State.write_of_busy hbusy, State.putPort_dropped]
    by_cases hn : n = m
    · subst hn
      simp [hbusy, Port.drop]
    · simp [hn, Ne.symm hn]
  · rw [State.write_of_not_busy hbusy, keepsDropped.received s m bits n]
    by_cases hn : n = m
    · subst hn
      simp [hbusy]
    · simp [Ne.symm hn]

/-- What is consumed of a response leaves DROPPED (R158). -/
@[simp] theorem Port.consumed_dropped (p : Port) (clocks : Nat) : (p.consumed clocks).dropped = p.dropped := by
  unfold Port.consumed
  split
  · split <;> rfl
  · rfl

/-- DROPPED after a read: cleared at the port whose status byte was shifted out whole (R159). -/
theorem State.read_dropped (s : State) (m n : HostId) (clocks : Nat) :
    ((s.read m clocks).ports.get n).dropped = ((s.ports.get n).dropped && !decide (m = n ∧ 8 ≤ clocks)) := by
  rw [State.read, State.putPort_dropped]
  by_cases hn : n = m
  · subst hn
    simp only [if_true, Port.consumed_dropped, Port.reported_eq, true_and, ← decide_not, not_le]
  · simp [hn, Ne.symm hn]

/-! ## The openers -/

/-- DROPPED after a transaction opened by 0x3C (R150, R151). -/
theorem State.transact_write_dropped (s : State) (m n : HostId) (early : Bool) (bits : List Bool) :
    ((s.transact m early (writeOpener ++ bits)).ports.get n).dropped =
      ((s.ports.get n).dropped
        || decide (m = n ∧ s.resetn = true ∧ early = false
          ∧ ((s.ports.get n).link = .pending ∨ (s.ports.get n).link = .answered))) := by
  rw [State.transact_write]
  split
  · rename_i hmet
    obtain ⟨hr, hearly⟩ : s.resetn = true ∧ early = false := by simpa using hmet
    simp [hr, hearly, State.write_dropped]
  · rename_i hunmet
    have hnot (P : Prop) [Decidable P] : decide (m = n ∧ s.resetn = true ∧ early = false ∧ P) = false :=
      decide_eq_false fun ⟨_, hr, hearly, _⟩ => hunmet (by simp [hr, hearly])
    rw [keepsDropped.undriven s m n, hnot, Bool.or_false]

/-- DROPPED after a transaction opened by 0xC3 (R150, R159). -/
theorem State.transact_read_dropped (s : State) (m n : HostId) (early : Bool) (bits : List Bool) :
    ((s.transact m early (readOpener ++ bits)).ports.get n).dropped =
      ((s.ports.get n).dropped && !decide (m = n ∧ s.resetn = true ∧ early = false ∧ 8 ≤ bits.length)) := by
  rw [State.transact_read]
  split
  · rename_i hmet
    obtain ⟨hr, hearly⟩ : s.resetn = true ∧ early = false := by simpa using hmet
    simp [hr, hearly, State.read_dropped]
  · rename_i hunmet
    have hnot (P : Prop) [Decidable P] : decide (m = n ∧ s.resetn = true ∧ early = false ∧ P) = false :=
      decide_eq_false fun ⟨_, hr, hearly, _⟩ => hunmet (by simp [hr, hearly])
    rw [keepsDropped.undriven s m n, hnot, Bool.not_false, Bool.and_true]

/-- A transaction with no known opener (R150). -/
theorem keepsDropped.transact_other (s : State) (n : HostId) (early : Bool) {bits : List Bool}
    (hwrite : bits.take 8 ≠ writeOpener) (hread : bits.take 8 ≠ readOpener) :
    keepsDropped s (s.transact n early bits) := by
  rw [s.transact_other n early bits hwrite hread]
  split
  · exact .ignore s n _
  · exact .undriven s n

/-- DROPPED after a transaction given by all its bits, which are a write's or a read's where their opener is (R150). -/
theorem State.transact_dropped (s : State) (m n : HostId) (bits : List Bool) :
    ((s.transact m false bits).ports.get n).dropped =
      (((s.ports.get n).dropped || decide (m = n ∧ s.resetn = true ∧ bits.take 8 = writeOpener
          ∧ ((s.ports.get n).link = .pending ∨ (s.ports.get n).link = .answered)))
        && !decide (m = n ∧ s.resetn = true ∧ bits.take 8 = readOpener ∧ 16 ≤ bits.length)) := by
  have hne : writeOpener ≠ readOpener := by decide
  by_cases hwrite : bits.take 8 = writeOpener
  · conv_lhs => rw [← List.take_append_drop 8 bits, hwrite]
    simp [State.transact_write_dropped, hwrite, hne]
  · by_cases hread : bits.take 8 = readOpener
    · have hlength : 8 ≤ bits.length - 8 ↔ 16 ≤ bits.length := by omega
      conv_lhs => rw [← List.take_append_drop 8 bits, hread]
      simp [State.transact_read_dropped, hread, hne.symm, hlength]
    · simp [keepsDropped.transact_other s m false hwrite hread n, hwrite, hread]

/-! ## Deadlines and ticks -/

/-- The outcome is a next state to which DROPPED stands at every port. -/
def droppedNext (s : State) (o : Host.Outcome State Fault Refusal) : Prop := ∃ t, o = .next t ∧ keepsDropped s t

/-- A next state to which DROPPED stands is one. -/
theorem droppedNext.of_keeps {s t : State} (h : keepsDropped s t) : droppedNext s (.next t) := ⟨t, rfl, h⟩

/-- A next state with the ports as they were. -/
theorem droppedNext.of_ports {s t : State} (h : t.ports = s.ports) : droppedNext s (.next t) := .of_keeps (.of_ports h)

/-- RESETN_RISE (R74). -/
theorem droppedNext_execResetnRise (dt : Nat) (levels : LineSet) (s : State) :
    droppedNext s (execResetnRise dt levels s) := by
  unfold execResetnRise
  split <;> exact .of_ports rfl

/-- SETTLE_END (R45). -/
theorem droppedNext_execSettleEnd (i : SlotId) (s : State) : droppedNext s (execSettleEnd i s) := by
  unfold execSettleEnd
  split
  · split
    · exact .of_ports (State.settleEnd_ports _ i _)
    · exact .of_ports rfl
  · exact .of_ports rfl

/-- YIELD_END (R58). -/
theorem droppedNext_execYieldEnd (i : SlotId) (s : State) : droppedNext s (execYieldEnd i s) := by
  unfold execYieldEnd
  split
  · split
    · exact .of_ports (State.freeAll_ports _ _ _)
    · exact .of_ports rfl
  · exact .of_ports rfl

/-- WAIT_END (R41). -/
theorem droppedNext_execWaitEnd (i : SlotId) (s : State) : droppedNext s (execWaitEnd i s) := by
  unfold execWaitEnd
  split
  · split
    · exact .of_ports (State.freeAll_ports _ _ _)
    · exact .of_ports rfl
  · exact .of_ports rfl

/-- HEARTBEAT_EXPIRY (R99). -/
theorem droppedNext_execHeartbeatExpiry (h : HostId) (s : State) : droppedNext s (execHeartbeatExpiry h s) := by
  unfold execHeartbeatExpiry
  split
  · exact .of_ports (State.lapse_ports _ h)
  · exact .of_ports rfl

/-- VOTE_DEADLINE (R136). -/
theorem droppedNext_execVoteDeadline (s : State) : droppedNext s (execVoteDeadline s) := by
  unfold execVoteDeadline
  split
  · exact .of_ports (State.forHosts_ports _ _ _ fun _ _ => rfl)
  · exact .of_ports rfl

/-- SAMPLING_TICK (R141). -/
theorem droppedNext_execSamplingTick (levels : LineSet) (s : State) : droppedNext s (execSamplingTick levels s) := by
  unfold execSamplingTick
  split
  · exact .of_ports (s.tick_ports levels)
  · exact .of_ports rfl

/-- BLANKING_END (R142). -/
theorem droppedNext_execBlankingEnd (l : LineId) (s : State) : droppedNext s (execBlankingEnd l s) := by
  unfold execBlankingEnd
  split <;> exact .of_ports rfl

/-! ## Every command -/

/-- The commands that can move DROPPED: the reset that empties the ports, and the transactions on them. -/
def mayMoveDropped : Instr → Bool
  | .hardwareReset _ | .requestFrame _ _ _ _ | .readTransaction _ _ _ _ | .ignoredTransaction _ _ _ => true
  | _ => false

/-- Every other command leaves DROPPED as it is at every port (R159). -/
theorem exec_droppedNext (c : Instr) (s : State) (hother : mayMoveDropped c = false) : droppedNext s (exec c s) := by
  cases c with
  | hardwareReset _ => cases hother
  | requestFrame _ _ _ _ => cases hother
  | readTransaction _ _ _ _ => cases hother
  | ignoredTransaction _ _ _ => cases hother
  | resetnRise dt levels => exact droppedNext_execResetnRise dt levels s
  | status dt n =>
    exact .of_keeps (keepsDropped.takeSession (s.elapse dt) n _ fun t n q c => by rw [handleStatus_state])
  | attach dt n => exact .of_keeps (keepsDropped.takeSession (s.elapse dt) n _ handleAttach_ports)
  | detach dt n => exact .of_keeps (keepsDropped.takeSession (s.elapse dt) n _ handleDetach_ports)
  | heartbeat dt n => exact .of_keeps (keepsDropped.takeSession (s.elapse dt) n _ handleHeartbeat_ports)
  | claim dt => exact .of_keeps (keepsDropped.takeChosen (s.elapse dt) _ handleClaim_ports)
  | release dt => exact .of_keeps (keepsDropped.takeChosen (s.elapse dt) _ handleRelease_ports)
  | queryClaim dt => exact .of_keeps (keepsDropped.takeChosen_of_state (s.elapse dt) _ handleQueryClaim_state)
  | setLevels dt => exact .of_keeps (keepsDropped.takeChosen (s.elapse dt) _ handleSetLevels_ports)
  | reconfigure dt => exact .of_keeps (keepsDropped.takeChosen (s.elapse dt) _ handleReconfigure_ports)
  | clearFault dt => exact .of_keeps (keepsDropped.takeChosen (s.elapse dt) _ handleClearFault_ports)
  | readLines dt => exact .of_keeps (keepsDropped.takeChosen_of_state (s.elapse dt) _ handleReadLines_state)
  | queryLine dt => exact .of_keeps (keepsDropped.takeChosen_of_state (s.elapse dt) _ handleQueryLine_state)
  | fetchNotices dt n => exact .of_keeps (keepsDropped.takeFetch (s.elapse dt) n)
  | readProfile dt => exact .of_keeps (keepsDropped.takeChosen_of_state (s.elapse dt) _ handleReadProfile_state)
  | setLineProfile dt => exact .of_keeps (keepsDropped.takeChosen (s.elapse dt) _ handleSetLineProfile_ports)
  | setBond dt => exact .of_keeps (keepsDropped.takeChosen (s.elapse dt) _ handleSetBond_ports)
  | setHostProfile dt => exact .of_keeps (keepsDropped.takeChosen (s.elapse dt) _ handleSetHostProfile_ports)
  | setTiming dt => exact .of_keeps (keepsDropped.takeChosen (s.elapse dt) _ handleSetTiming_ports)
  | commitProfile dt => exact .of_keeps (keepsDropped.takeChosen (s.elapse dt) _ handleCommitProfile_ports)
  | reopenVote dt => exact .of_keeps (keepsDropped.takeChosen (s.elapse dt) _ handleReopenVote_ports)
  | clearAll dt => exact .of_keeps (keepsDropped.takeChosen (s.elapse dt) _ handleClearAll_ports)
  | samplingTick levels => exact droppedNext_execSamplingTick levels s
  | blankingEnd l => exact droppedNext_execBlankingEnd l s
  | settleEnd i => exact droppedNext_execSettleEnd i s
  | yieldEnd i => exact droppedNext_execYieldEnd i s
  | waitEnd i => exact droppedNext_execWaitEnd i s
  | heartbeatExpiry h => exact droppedNext_execHeartbeatExpiry h s
  | voteDeadline => exact droppedNext_execVoteDeadline s

/-- What any other command leaves, where its next state is given. -/
theorem keepsDropped.of_exec {c : Instr} {s t : State} (hexec : exec c s = .next t)
    (hother : mayMoveDropped c = false) : keepsDropped s t := by
  obtain ⟨u, hu, hkeeps⟩ := exec_droppedNext c s hother
  cases hexec.symm.trans hu
  exact hkeeps

/-- A write that meets RESETn high in PENDING or ANSWERED is dropped (R150, R151). -/
theorem exec_requestFrame_of_busy {s : State} {n : HostId} (hr : s.resetn = true)
    (hbusy : (s.ports.get n).link = .pending ∨ (s.ports.get n).link = .answered) (dt : Nat) (bits : List Bool) :
    exec (.requestFrame dt n false bits) s =
      .next ((s.elapse dt).putPort n ((s.ports.get n).drop (8 + bits.length))) := by
  change Host.Outcome.next ((s.elapse dt).transact n false (writeOpener ++ bits)) = _
  rw [State.transact_write, State.elapse_resetn, hr, State.write_of_busy (s := s.elapse dt) hbusy]
  rfl

/-- Settles O8: a write in PENDING or ANSWERED goes to `Port.drop`; the openers say what a transaction does to DROPPED, a hardware
reset clears it at every port, and every other command reaches a port by an answer at most. -/
theorem writeDroppedWhileBusy : Obligations.WriteDroppedWhileBusy := by
  unfold Obligations.WriteDroppedWhileBusy
  intro s dt n bits c u
  refine ⟨fun hr hbusy => ⟨_, exec_requestFrame_of_busy hr hbusy dt bits, rfl, Table.get_set_self _ _ _,
    fun m hm => Table.get_set_ne _ _ hm⟩, fun hexec => ?_⟩
  cases c with
  | hardwareReset _ =>
    obtain rfl := Host.Outcome.next.inj hexec
    exact congrArg Port.dropped (Table.get_fill 4 Port.reset n)
  | requestFrame dt m early bits =>
    obtain rfl := Host.Outcome.next.inj hexec
    exact (s.elapse dt).transact_write_dropped m n early bits
  | readTransaction dt m early clocks =>
    obtain rfl := Host.Outcome.next.inj hexec
    have hread := (s.elapse dt).transact_read_dropped m n early (List.replicate clocks false)
    rwa [List.length_replicate] at hread
  | ignoredTransaction dt m bits =>
    obtain rfl := Host.Outcome.next.inj hexec
    exact (s.elapse dt).transact_dropped m n bits
  | _ => exact keepsDropped.of_exec hexec rfl n

end Sys2Proof.Machine
end

section
/-! SUPPORT. What a command can do, said once: time passes, a port may be written, a heartbeat refreshed, and one of the effects below
happens (`exec_effect`). What every step keeps is proved effect by effect. -/

namespace Sys2Proof.Machine

/-! ## What no block's own state sees -/

/-- From `s` to `t` the time, the ports and the arbiters' last-served links alone may change. -/
def quiet (s t : State) : Prop :=
  t = { s with now := t.now, ports := t.ports, ctcLast := t.ctcLast, lcaLast := t.lcaLast, puLast := t.puLast }

/-- Nothing changes. -/
theorem quiet.refl (s : State) : quiet s s := rfl

/-- One quiet change follows another. -/
theorem quiet.trans {s t u : State} (h1 : quiet s t) (h2 : quiet t u) : quiet s u := by
  unfold quiet at *
  rw [h2, h1]

/-- Time passes (R139). -/
theorem quiet.elapse (s : State) (dt : Nat) : quiet s (s.elapse dt) := rfl

/-- A deadline's moment arrives (R140). -/
theorem quiet.reach (s : State) (d : Nat) : quiet s (s.reach d) := rfl

/-- A port is put in place. -/
theorem quiet.putPort (s : State) (n : HostId) (p : Port) : quiet s (s.putPort n p) := rfl

/-- A reply is posted (R156). -/
theorem quiet.reply (s : State) (n : HostId) (q : Request) (a : Answer) : quiet s (s.reply n q a) := rfl

/-- A block serves a link (R12). -/
theorem quiet.serve (s : State) (o : Owner) (n : HostId) : quiet s (s.serve o n) := by cases o <;> rfl

/-- What a state keeps through a quiet change. -/
theorem quiet.kept {s t : State} (h : quiet s t) :
    t.pending = s.pending ∧ t.nextTick = s.nextTick ∧ t.resetn = s.resetn ∧ t.sessions = s.sessions ∧ t.slots = s.slots
      ∧ t.eligible = s.eligible ∧ t.cells = s.cells ∧ t.boards = s.boards ∧ t.profile = s.profile ∧ t.vote = s.vote := by
  rw [h]
  exact ⟨rfl, rfl, rfl, rfl, rfl, rfl, rfl, rfl, rfl, rfl⟩

/-- From `s` to `t` an admission may have refreshed one heartbeat (R93). -/
def mayRefresh (s t : State) : Prop := t = s ∨ ∃ n, t = s.refresh n

/-- An admission leaves every session's state, epoch, period and vote flag (R93). -/
theorem mayRefresh.session {s t : State} (h : mayRefresh s t) (n : HostId) :
    (t.sessions.get n).state = (s.sessions.get n).state ∧ (t.sessions.get n).epoch = (s.sessions.get n).epoch
      ∧ (t.sessions.get n).period = (s.sessions.get n).period ∧ (t.sessions.get n).voted = (s.sessions.get n).voted := by
  rcases h with rfl | ⟨m, rfl⟩
  · exact ⟨rfl, rfl, rfl, rfl⟩
  · rw [State.refresh_eq, State.putSession_sessions, Table.get_set]
    split
    · rename_i hn
      subst hn
      unfold Session.refreshed
      split <;> exact ⟨rfl, rfl, rfl, rfl⟩
    · exact ⟨rfl, rfl, rfl, rfl⟩

/-- An admission changes the sessions alone (R93). -/
theorem mayRefresh.frame {s t : State} (h : mayRefresh s t) : t = { s with sessions := t.sessions } := by
  rcases h with rfl | ⟨m, rfl⟩
  · rfl
  · rw [State.refresh_eq]
    rfl

/-! ## The effects -/

/-- What command `c` can do to the part, the passing of time, the ports and the refresh of an admission apart, with what is known
where it does. -/
inductive Effect : Instr → State → State → Prop
  /-- Nothing: a report, a refusal, a transaction, or an event that cannot occur. -/
  | stands (c : Instr) (s : State) : Effect c s s
  /-- HARDWARE_RESET (R74, R104). -/
  | falls (dt : Nat) (s t : State) (h : execHardwareReset dt s = .next t) : Effect (.hardwareReset dt) s t
  /-- RESETN_RISE (R69, R74). -/
  | rises (dt : Nat) (levels : LineSet) (s : State) (hlow : s.resetn = false) :
    Effect (.resetnRise dt levels) s
      { s with
        resetn := true, nextTick := s.now + Config.tickPeriod
        cells := Table.ofFn fun l => Cell.reset (has levels l) }
  /-- ATTACH from DETACHED or LAPSED (R95). -/
  | begins (dt : Nat) (n : HostId) (p : Nat) (s : State) (hstate : (s.sessions.get n).state ≠ .attached)
    (hp : 1 ≤ p ∧ p ≤ 1000) : Effect (.attach dt n) s (s.beginSession n p)
  /-- ATTACH while ATTACHED (R96). -/
  | restarts (dt : Nat) (n : HostId) (p : Nat) (s : State) (hstate : (s.sessions.get n).state = .attached)
    (hp : 1 ≤ p ∧ p ≤ 1000) : Effect (.attach dt n) s (s.restartSession n p)
  /-- DETACH from ATTACHED (R100). -/
  | detaches (dt : Nat) (n : HostId) (s : State) (hstate : (s.sessions.get n).state = .attached) :
    Effect (.detach dt n) s (s.detachAttached n)
  /-- DETACH from LAPSED (R100). -/
  | closes (dt : Nat) (n : HostId) (s : State) (hstate : (s.sessions.get n).state ≠ .attached) :
    Effect (.detach dt n) s (s.detachLapsed n)
  /-- HEARTBEAT with a period (R98). -/
  | beats (dt : Nat) (n : HostId) (p : Nat) (s : State) (hstate : (s.sessions.get n).state = .attached)
    (hp : 1 ≤ p ∧ p ≤ 1000) :
    Effect (.heartbeat dt n) s
      (s.putSession n { s.sessions.get n with period := p, deadline := some (s.heartbeatEnd p) })
  /-- HEARTBEAT_EXPIRY (R99). -/
  | lapses (n : HostId) (s : State) (hstate : (s.sessions.get n).state = .attached) :
    Effect (.heartbeatExpiry n) s (s.lapse n)
  /-- CLAIM granted at once (R21). -/
  | claims (dt : Nat) (n : HostId) (p : List Byte) (a : ClaimArgs) (i : SlotId) (s : State) (hr : s.resetn = true)
    (hstate : (s.sessions.get n).state = .attached) (hargs : claimArgs p = some a) (hchecks : claimRefusal s n a = none)
    (hfree : freeSlot s.slots = some i)
    (hgrant : arrivalGrantable s.slots (s.profile.hosts.get n).priority a.entries = true) :
    Effect (.claim dt) s (s.grantInto i (newRecord s n a)).eligibility
  /-- CLAIM queued (R21, R22). -/
  | queues (dt : Nat) (n : HostId) (p : List Byte) (a : ClaimArgs) (i : SlotId) (s : State) (hr : s.resetn = true)
    (hstate : (s.sessions.get n).state = .attached) (hargs : claimArgs p = some a) (hchecks : claimRefusal s n a = none)
    (hfree : freeSlot s.slots = some i)
    (hwait : arrivalGrantable s.slots (s.profile.hosts.get n).priority a.entries = false) :
    Effect (.claim dt) s (s.putRecord i (newRecord s n a)).evaluate
  /-- RELEASE (R23). -/
  | releases (dt : Nat) (i : SlotId) (s : State) : Effect (.release dt) s (s.freeAll [i] .released)
  /-- SETTLE_END (R45, R54). -/
  | settles (i : SlotId) (r : Record) (s : State) (hrec : s.slots.get i = some r) (hstate : r.state = .settling) :
    Effect (.settleEnd i) s (s.settleEnd i r)
  /-- YIELD_END (R58). -/
  | revokes (i : SlotId) (s : State) : Effect (.yieldEnd i) s (s.freeAll [i] .revoked)
  /-- WAIT_END (R41). -/
  | expires (i : SlotId) (s : State) : Effect (.waitEnd i) s (s.freeAll [i] .waitExpired)
  /-- SET LEVELS (R84). -/
  | levels (dt : Nat) (i : SlotId) (r : Record) (a : LevelArgs) (s : State) (hrec : s.slots.get i = some r)
    (hp : r.presenting = true) :
    Effect (.setLevels dt) s
      (s.resettle i r (positionIn a.positions) fun p st =>
        if positionIn a.positions p then { st with level := positionIn a.levels p } else st)
  /-- RECONFIGURE (R85). -/
  | reconfigures (dt : Nat) (i : SlotId) (r : Record) (named : List (Nat × Setting)) (s : State)
    (hrec : s.slots.get i = some r) (hp : r.presenting = true) : Effect (.reconfigure dt) s (s.applySettings i r named)
  /-- CLEAR FAULT (R86). -/
  | unparks (dt : Nat) (r : Record) (ps : Byte) (s : State) : Effect (.clearFault dt) s (s.unparkLines r ps)
  /-- FETCH NOTICES (R117). -/
  | fetches (dt : Nat) (n : HostId) (s : State) : Effect (.fetchNotices dt n) s (s.editBoard n Board.fetched)
  /-- SET LINE PROFILE (R125, R126). -/
  | editsLines (dt : Nat) (es : List (LineId × LineProfile)) (s : State) (hopen : s.profile.state = .opened) :
    Effect (.setLineProfile dt) s (s.applyLineProfile es)
  /-- SET BOND (R128). -/
  | bonds (dt : Nat) (g : GroupId) (v : Bool) (s : State) (hopen : s.profile.state = .opened) :
    Effect (.setBond dt) s (s.setBonded g v)
  /-- SET HOST PROFILE (R129, R130). -/
  | editsHost (dt : Nat) (a : HostArgs) (s : State) (hopen : s.profile.state = .opened)
    (hadmin : ¬ (a.admin = false ∧ s.profile.admin = bitOf a.host)) (hquota : recordCount s.slots a.host ≤ a.quota) :
    Effect (.setHostProfile dt) s (s.setHost a)
  /-- SET TIMING (R147). -/
  | times (dt : Nat) (p : List Byte) (a : TimingArgs) (s : State) (hopen : s.profile.state = .opened)
    (hargs : timingArgs p = some a) : Effect (.setTiming dt) s (s.setTiming a)
  /-- COMMIT PROFILE (R132). -/
  | commits (dt : Nat) (s : State) (hopen : s.profile.state = .opened) :
    Effect (.commitProfile dt) s { s with profile := { s.profile with state := .committed } }
  /-- REOPEN VOTE (R134). -/
  | votes (dt : Nat) (n : HostId) (s : State) (hstate : (s.sessions.get n).state = .attached)
    (hcommitted : s.profile.state = .committed) : Effect (.reopenVote dt) s (s.reopenVote n)
  /-- CLEAR ALL (R137). -/
  | clears (dt : Nat) (n : HostId) (s : State) (hstate : (s.sessions.get n).state = .attached) :
    Effect (.clearAll dt) s (s.clearAll n)
  /-- SAMPLING_TICK (R75). -/
  | samples (levels : LineSet) (s : State) : Effect (.samplingTick levels) s (s.tick levels)
  /-- BLANKING_END (R142). -/
  | unblanks (l : LineId) (e : Nat) (s : State) :
    Effect (.blankingEnd l) s { s with cells := s.cells.set l ((s.cells.get l).unblank e) }
  /-- VOTE_DEADLINE (R136). -/
  | failsVote (s : State) (hrunning : s.vote.running = true) :
    Effect .voteDeadline s (s.endVote.forHosts s.vote.voted fun t h => t.flag h fun f => { f with voteFailed := true })

/-- From `s`, command `c` leads to `t` by an effect, a quiet change and perhaps a refresh before it, and a quiet change after it that
takes no time. -/
def does (c : Instr) (s t : State) : Prop :=
  ∃ u v w, quiet s u ∧ mayRefresh u v ∧ Effect c v w ∧ quiet w t ∧ t.now = w.now

/-- A quiet change alone. -/
theorem does.of_quiet {c : Instr} {s t : State} (h : quiet s t) : does c s t :=
  ⟨t, t, t, h, .inl rfl, .stands c t, .refl t, rfl⟩

/-- An effect after a quiet change. -/
theorem does.of_effect {c : Instr} {s u t : State} (h : quiet s u) (he : Effect c u t) : does c s t :=
  ⟨u, u, t, h, .inl rfl, he, .refl t, rfl⟩

/-! ## Requests -/

/-- Where a handling has an effect on every state whose issuer is ATTACHED, so has the command of its kind. -/
theorem does.takeChosen (s : State) (dt : Nat) (k : Kind) {c : Instr} {f : State → HostId → Request → State × Answer}
    (hk : k ≠ .fetchNotices)
    (hf : ∀ t n q, t.resetn = true → (t.sessions.get n).state = .attached → Effect c t (f t n q).1) :
    does c s ((s.elapse dt).takeChosen k f) := by
  rcases (s.elapse dt).takeChosen_cases k f with heq | ⟨n, q, ⟨hr, _, hkind, _⟩, heq⟩ <;> rw [heq]
  · exact .of_quiet (.elapse s dt)
  · have hquiet : quiet s ((s.elapse dt).serve k.owner n) := (quiet.elapse s dt).trans (.serve _ _ _)
    rcases ((s.elapse dt).serve k.owner n).take_cases n q f with ⟨st, _, htake⟩ | ⟨hpass, htake⟩ <;> rw [htake]
    · exact .of_quiet (hquiet.trans (.reply _ _ _ _))
    · obtain ⟨_, hstate | ⟨_, hfetch⟩⟩ := (recheck_eq_none _ _ _).mp hpass
      · exact ⟨_, _, _, hquiet, .inl rfl, hf _ n q (by simpa using hr) hstate, .reply _ _ _ _, rfl⟩
      · exact absurd (hkind.symm.trans hfetch) hk

/-- A command whose handling changes nothing. -/
theorem does.takeChosen_of_state (s : State) (dt : Nat) (k : Kind) {c : Instr}
    {f : State → HostId → Request → State × Answer} (hk : k ≠ .fetchNotices) (hf : ∀ t n q, (f t n q).1 = t) :
    does c s ((s.elapse dt).takeChosen k f) :=
  .takeChosen s dt k hk fun t n q _ _ => by rw [hf]; exact .stands c t

/-- The Notice Board's command. -/
theorem does.takeAt (s : State) (dt : Nat) (n : HostId) (k : Kind) {c : Instr}
    {f : State → HostId → Request → State × Answer} (hf : ∀ t q, Effect c t (f t n q).1) :
    does c s ((s.elapse dt).takeAt n k f) := by
  rcases (s.elapse dt).takeAt_cases n k f with heq | ⟨q, _, _, _, heq⟩ <;> rw [heq]
  · exact .of_quiet (.elapse s dt)
  · rcases (s.elapse dt).take_cases n q f with ⟨st, _, htake⟩ | ⟨_, htake⟩ <;> rw [htake]
    · exact .of_quiet ((quiet.elapse s dt).trans (.reply _ _ _ _))
    · exact ⟨_, _, _, .elapse s dt, .inl rfl, hf _ q, .reply _ _ _ _, rfl⟩

/-- Where a handling of the Session Unit has an effect on every refreshed state, the context before the refresh being in the same
session state, so has the command of its kind. -/
theorem does.takeSession (s : State) (dt : Nat) (n : HostId) (k : Kind) {c : Instr}
    {f : State → HostId → Request → Session → State × Answer}
    (hf : ∀ t q b, b.state = (t.sessions.get n).state → b.state.allows k → Effect c t (f t n q b).1) :
    does c s ((s.elapse dt).takeSession n k f) := by
  rcases (s.elapse dt).takeSession_cases n k f with heq | ⟨q, _, _, _, ⟨st, _, heq⟩ | ⟨⟨hallows, _⟩, heq⟩⟩ <;> rw [heq]
  · exact .of_quiet (.elapse s dt)
  · exact .of_quiet ((quiet.elapse s dt).trans (.reply _ _ _ _))
  · have hrefresh : mayRefresh (s.elapse dt) ((s.elapse dt).refresh n) := .inr ⟨n, rfl⟩
    exact ⟨_, _, _, .elapse s dt, hrefresh, hf _ q _ (hrefresh.session n).1.symm hallows, .reply _ _ _ _, rfl⟩

/-- A heartbeat period read from a payload is 1 to 1000 (R95, R98). -/
theorem periodArg_range {p : List Byte} {x : Nat} (h : periodArg p = some x) : 1 ≤ x ∧ x ≤ 1000 := by
  unfold periodArg at h
  split at h
  · dsimp only at h
    split at h
    · rename_i hx
      cases h
      exact hx
    · cases h
  · cases h

/-- ATTACH begins a session, restarts one, or is refused (R95, R96). -/
theorem Effect.handleAttach (dt : Nat) (t : State) (n : HostId) (q : Request) (b : Session)
    (hb : b.state = (t.sessions.get n).state) : Effect (.attach dt n) t (handleAttach t n q b).1 := by
  unfold Machine.handleAttach
  split
  · exact .stands _ t
  · rename_i p hp
    dsimp only
    split
    · rename_i hstate
      exact .restarts dt n p t (hb ▸ hstate) (periodArg_range hp)
    · rename_i hstate
      exact .begins dt n p t (hb ▸ hstate) (periodArg_range hp)

/-- DETACH ends a session, or is refused (R100). -/
theorem Effect.handleDetach (dt : Nat) (t : State) (n : HostId) (q : Request) (b : Session)
    (hb : b.state = (t.sessions.get n).state) : Effect (.detach dt n) t (handleDetach t n q b).1 := by
  unfold Machine.handleDetach
  split
  · dsimp only
    split
    · rename_i hstate
      exact .detaches dt n t (hb ▸ hstate)
    · rename_i hstate
      exact .closes dt n t (hb ▸ hstate)
  · exact .stands _ t

/-- HEARTBEAT takes a new period, or changes nothing (R98). -/
theorem Effect.handleHeartbeat (dt : Nat) (t : State) (n : HostId) (q : Request) (b : Session)
    (hb : b.state = (t.sessions.get n).state) (hallows : b.state.allows .heartbeat) :
    Effect (.heartbeat dt n) t (handleHeartbeat t n q b).1 := by
  have hstate : (t.sessions.get n).state = .attached := by simpa [SessState.allows, hb] using hallows
  unfold Machine.handleHeartbeat
  split
  · exact .stands _ t
  · split
    · rename_i p hp
      exact .beats dt n p t hstate (periodArg_range hp)
    · exact .stands _ t

/-- CLAIM makes a record, granted or waiting, or is refused (R15, R21). -/
theorem Effect.handleClaim (dt : Nat) (t : State) (n : HostId) (q : Request) (hr : t.resetn = true)
    (hstate : (t.sessions.get n).state = .attached) : Effect (.claim dt) t (handleClaim t n q).1 := by
  unfold Machine.handleClaim
  split
  · exact .stands _ t
  · rename_i a hargs
    split
    · exact .stands _ t
    · rename_i i hchecks hfree
      unfold State.admitClaim
      split
      · rename_i hgrant
        exact .claims dt n q.payload a i t hr hstate hargs hchecks hfree hgrant
      · rename_i hwait
        split
        · exact .stands _ t
        · exact .queues dt n q.payload a i t hr hstate hargs hchecks hfree (by simpa using hwait)
    · exact .stands _ t

/-- RELEASE frees a record, or is refused (R23). -/
theorem Effect.handleRelease (dt : Nat) (t : State) (n : HostId) (q : Request) :
    Effect (.release dt) t (handleRelease t n q).1 := by
  unfold Machine.handleRelease
  split
  · exact .stands _ t
  · split
    · exact .stands _ t
    · exact .releases dt _ t

/-- SET LEVELS edits a record and its cells, or is refused (R83, R84). -/
theorem Effect.handleSetLevels (dt : Nat) (t : State) (n : HostId) (q : Request) :
    Effect (.setLevels dt) t (handleSetLevels t n q).1 := by
  unfold Machine.handleSetLevels
  split
  · exact .stands _ t
  · split
    · exact .stands _ t
    · rename_i i r hfound
      split
      · split
        · rename_i hp
          unfold State.applyLevels
          split
          · exact .stands _ t
          · split
            · exact .stands _ t
            · exact .levels dt i r _ t (findTicket_some hfound).1 hp
        · exact .stands _ t
      · exact .stands _ t

/-- RECONFIGURE edits a record, its cells and its owner's board, or is refused (R83, R85). -/
theorem Effect.handleReconfigure (dt : Nat) (t : State) (n : HostId) (q : Request) :
    Effect (.reconfigure dt) t (handleReconfigure t n q).1 := by
  unfold Machine.handleReconfigure
  split
  · exact .stands _ t
  · split
    · exact .stands _ t
    · rename_i i r hfound
      split
      · exact .stands _ t
      · split
        · rename_i hp
          exact .reconfigures dt i r _ t (findTicket_some hfound).1 hp
        · exact .stands _ t

/-- CLEAR FAULT unparks cells, or is refused (R83, R86). -/
theorem Effect.handleClearFault (dt : Nat) (t : State) (n : HostId) (q : Request) :
    Effect (.clearFault dt) t (handleClearFault t n q).1 := by
  unfold Machine.handleClearFault
  split
  · exact .stands _ t
  · split
    · exact .stands _ t
    · split
      · split
        · exact .unparks dt _ _ t
        · exact .stands _ t
      · exact .stands _ t

/-- A profile edit has an effect only while the profile is OPEN (R124). -/
theorem Effect.profileEdit {α : Type} (c : Instr) (t : State) (n : HostId) (args : Option α) (f : α → State × Answer)
    (hf : ∀ a, args = some a → t.profile.state = .opened → Effect c t (f a).1) : Effect c t (profileEdit t n args f).1 := by
  unfold Machine.profileEdit
  split
  · split
    · rename_i hopen
      split
      · rename_i a
        exact hf a rfl hopen
      · exact .stands _ t
    · exact .stands _ t
  · exact .stands _ t

/-- SET BOND changes the bonds, or is refused (R128). -/
theorem Effect.handleSetBond (dt : Nat) (t : State) (n : HostId) (q : Request) :
    Effect (.setBond dt) t (handleSetBond t n q).1 :=
  .profileEdit _ t n _ _ fun a _ hopen => by
    split
    · exact .stands _ t
    · exact .bonds dt _ _ t hopen

/-- SET HOST PROFILE changes one host's items, or is refused (R129, R130). -/
theorem Effect.handleSetHostProfile (dt : Nat) (t : State) (n : HostId) (q : Request) :
    Effect (.setHostProfile dt) t (handleSetHostProfile t n q).1 :=
  .profileEdit _ t n _ _ fun a _ hopen => by
    split
    · exact .stands _ t
    · rename_i hadmin
      split
      · exact .stands _ t
      · rename_i hquota
        exact .editsHost dt a t hopen hadmin (Nat.le_of_not_lt hquota)

/-- REOPEN VOTE counts a vote while COMMITTED, or is refused (R134). -/
theorem Effect.handleReopenVote (dt : Nat) (t : State) (n : HostId) (q : Request)
    (hstate : (t.sessions.get n).state = .attached) : Effect (.reopenVote dt) t (handleReopenVote t n q).1 := by
  unfold Machine.handleReopenVote
  split
  · split
    · rename_i hcommitted
      exact .votes dt n t hstate hcommitted
    · exact .stands _ t
  · exact .stands _ t

/-- CLEAR ALL empties the table, or is refused (R137). -/
theorem Effect.handleClearAll (dt : Nat) (t : State) (n : HostId) (q : Request)
    (hstate : (t.sessions.get n).state = .attached) : Effect (.clearAll dt) t (handleClearAll t n q).1 := by
  unfold Machine.handleClearAll
  split
  · split
    · exact .clears dt n t hstate
    · exact .stands _ t
  · split <;> exact .stands _ t

/-- FETCH NOTICES takes what it returns off the board, or is refused (R117). -/
theorem Effect.handleFetch (dt : Nat) (t : State) (n : HostId) (q : Request) :
    Effect (.fetchNotices dt n) t (handleFetch t n q).1 := by
  unfold Machine.handleFetch
  split
  · exact .fetches dt n t
  · exact .stands _ t

/-! ## Transactions -/

/-- The judgement of a request handed on may refresh a heartbeat, and writes a port (R92, R93). -/
theorem State.judge_effect (s : State) (n : HostId) (f : Frame) (k : Kind) :
    ∃ u, mayRefresh s u ∧ quiet u (s.judge n f k) ∧ (s.judge n f k).now = u.now := by
  unfold State.judge
  split
  · exact ⟨s, .inl rfl, .reply _ _ _ _, rfl⟩
  · split
    · exact ⟨s, .inl rfl, rfl, rfl⟩
    · exact ⟨s.refresh n, .inr ⟨n, rfl⟩, rfl, rfl⟩

/-- A well-formed frame received may refresh a heartbeat, and writes a port (R155, R156). -/
theorem State.acceptFrame_effect (s : State) (n : HostId) (f : Frame) :
    ∃ u, mayRefresh s u ∧ quiet u (s.acceptFrame n f) ∧ (s.acceptFrame n f).now = u.now := by
  unfold State.acceptFrame
  split
  · split
    · exact ⟨s, .inl rfl, rfl, rfl⟩
    · split
      · exact s.judge_effect n f _
      · exact ⟨s, .inl rfl, rfl, rfl⟩
  · split
    · exact s.judge_effect n f _
    · exact ⟨s, .inl rfl, rfl, rfl⟩

/-- A write transaction writes a port, may refresh a heartbeat, and writes the port again (R151, R153). -/
theorem State.write_effect (s : State) (n : HostId) (bits : List Bool) :
    ∃ u v, quiet s u ∧ mayRefresh u v ∧ quiet v (s.write n bits) ∧ (s.write n bits).now = v.now := by
  have frameEnd (t : State) : ∃ v, mayRefresh t v ∧ quiet v (t.frameEnd n bits) ∧ (t.frameEnd n bits).now = v.now := by
    unfold State.frameEnd
    split
    · exact ⟨t, .inl rfl, rfl, rfl⟩
    · exact t.acceptFrame_effect n _
  unfold State.write
  split
  · exact ⟨s, s, rfl, .inl rfl, rfl, rfl⟩
  · exact ⟨s, s, rfl, .inl rfl, rfl, rfl⟩
  · obtain ⟨v, hv, hend⟩ := frameEnd (s.putPort n ((s.ports.get n).receive bits))
    exact ⟨_, v, .putPort _ _ _, hv, hend⟩
  · obtain ⟨v, hv, hend⟩ := frameEnd (s.putPort n ((s.ports.get n).receive bits))
    exact ⟨_, v, .putPort _ _ _, hv, hend⟩

/-- A transaction may refresh a heartbeat, and touches nothing else but its port (R150 to R159). -/
theorem does.transact (c : Instr) (s : State) (dt : Nat) (n : HostId) (early : Bool) (bits : List Bool) :
    does c s ((s.elapse dt).transact n early bits) := by
  have write (bits : List Bool) : does c s ((s.elapse dt).write n bits) := by
    obtain ⟨u, v, hu, hv, hw⟩ := (s.elapse dt).write_effect n bits
    exact ⟨u, v, v, (quiet.elapse s dt).trans hu, hv, .stands c v, hw⟩
  unfold State.transact
  split
  · split
    · split
      · exact write _
      · split <;> exact .of_quiet rfl
    · exact .of_quiet rfl
  · exact .of_quiet rfl

/-! ## Events -/

/-- HARDWARE_RESET resets the part (R74, R104). -/
theorem does.execHardwareReset (dt : Nat) (s : State) :
    ∃ t, execHardwareReset dt s = .next t ∧ does (.hardwareReset dt) s t :=
  ⟨_, rfl, .of_effect (.refl s) (.falls dt s _ rfl)⟩

/-- RESETN_RISE lets the cells take their first sample, or finds RESETn high (R69, R74). -/
theorem does.execResetnRise (dt : Nat) (levels : LineSet) (s : State) :
    ∃ t, execResetnRise dt levels s = .next t ∧ does (.resetnRise dt levels) s t := by
  refine ⟨_, rfl, ?_⟩
  split
  · exact .of_quiet (.elapse s dt)
  · rename_i hlow
    exact .of_effect (u := s.elapse dt) (.elapse s dt) (.rises dt levels (s.elapse dt) (by simpa using hlow))

/-- SETTLE_END brings a record from SETTLING, or finds none (R45). -/
theorem does.execSettleEnd (i : SlotId) (s : State) : ∃ t, execSettleEnd i s = .next t ∧ does (.settleEnd i) s t := by
  refine ⟨_, rfl, ?_⟩
  split
  · rename_i r _ hrec
    split
    · rename_i d hstate _
      exact .of_effect (.reach s d) (.settles i r (s.reach d) hrec hstate)
    · exact .of_quiet (.refl s)
  · exact .of_quiet (.refl s)

/-- YIELD_END frees a record, or finds none (R58). -/
theorem does.execYieldEnd (i : SlotId) (s : State) : ∃ t, execYieldEnd i s = .next t ∧ does (.yieldEnd i) s t := by
  refine ⟨_, rfl, ?_⟩
  split
  · split
    · rename_i d _ _
      exact .of_effect (.reach s d) (.revokes i _)
    · exact .of_quiet (.refl s)
  · exact .of_quiet (.refl s)

/-- WAIT_END frees a record, or finds none (R41). -/
theorem does.execWaitEnd (i : SlotId) (s : State) : ∃ t, execWaitEnd i s = .next t ∧ does (.waitEnd i) s t := by
  refine ⟨_, rfl, ?_⟩
  split
  · split
    · rename_i d _ _
      exact .of_effect (.reach s d) (.expires i _)
    · exact .of_quiet (.refl s)
  · exact .of_quiet (.refl s)

/-- HEARTBEAT_EXPIRY lapses a session, or finds no deadline (R99). -/
theorem does.execHeartbeatExpiry (n : HostId) (s : State) : ∃ t, execHeartbeatExpiry n s = .next t ∧ does (.heartbeatExpiry n) s t := by
  refine ⟨_, rfl, ?_⟩
  split
  · rename_i d _ hstate _
    exact .of_effect (.reach s d) (.lapses n (s.reach d) hstate)
  · exact .of_quiet (.refl s)

/-- VOTE_DEADLINE ends a vote, or finds none (R136). -/
theorem does.execVoteDeadline (s : State) : ∃ t, execVoteDeadline s = .next t ∧ does .voteDeadline s t := by
  refine ⟨_, rfl, ?_⟩
  split
  · rename_i d _ hrunning _
    exact .of_effect (.reach s d) (.failsVote (s.reach d) hrunning)
  · exact .of_quiet (.refl s)

/-- BLANKING_END ends a line's blanking, or finds none (R142). -/
theorem does.execBlankingEnd (l : LineId) (s : State) : ∃ t, execBlankingEnd l s = .next t ∧ does (.blankingEnd l) s t := by
  refine ⟨_, rfl, ?_⟩
  split
  · rename_i e _ _
    exact .of_effect (.reach s e) (.unblanks l e (s.reach e))
  · exact .of_quiet (.refl s)

/-! ## Every command -/

/-- What a command does is one of the effects, with time, ports and a refresh about it. -/
theorem exec_does (c : Instr) (s : State) : ∃ t, exec c s = .next t ∧ does c s t := by
  cases c with
  | hardwareReset dt => exact does.execHardwareReset dt s
  | resetnRise dt levels => exact does.execResetnRise dt levels s
  | settleEnd i => exact does.execSettleEnd i s
  | yieldEnd i => exact does.execYieldEnd i s
  | waitEnd i => exact does.execWaitEnd i s
  | heartbeatExpiry n => exact does.execHeartbeatExpiry n s
  | voteDeadline => exact does.execVoteDeadline s
  | blankingEnd l => exact does.execBlankingEnd l s
  | samplingTick levels =>
    refine ⟨_, rfl, ?_⟩
    split
    · exact .of_effect (.refl s) (.samples levels s)
    · exact .of_quiet (.refl s)
  | requestFrame dt n early bits => exact ⟨_, rfl, .transact _ s dt n early _⟩
  | readTransaction dt n early clocks => exact ⟨_, rfl, .transact _ s dt n early _⟩
  | ignoredTransaction dt n bits => exact ⟨_, rfl, .transact _ s dt n false bits⟩
  | status dt n => exact ⟨_, rfl, .takeSession s dt n _ fun t q b _ _ => by rw [handleStatus_state]; exact .stands _ t⟩
  | attach dt n => exact ⟨_, rfl, .takeSession s dt n _ fun t q b hb _ => .handleAttach dt t n q b hb⟩
  | detach dt n => exact ⟨_, rfl, .takeSession s dt n _ fun t q b hb _ => .handleDetach dt t n q b hb⟩
  | heartbeat dt n => exact ⟨_, rfl, .takeSession s dt n _ fun t q b hb hallows => .handleHeartbeat dt t n q b hb hallows⟩
  | fetchNotices dt n => exact ⟨_, rfl, .takeAt s dt n _ fun t q => .handleFetch dt t n q⟩
  | claim dt => exact ⟨_, rfl, .takeChosen s dt _ (by simp) fun t n q hr hstate => .handleClaim dt t n q hr hstate⟩
  | release dt => exact ⟨_, rfl, .takeChosen s dt _ (by simp) fun t n q _ _ => .handleRelease dt t n q⟩
  | setLevels dt => exact ⟨_, rfl, .takeChosen s dt _ (by simp) fun t n q _ _ => .handleSetLevels dt t n q⟩
  | reconfigure dt => exact ⟨_, rfl, .takeChosen s dt _ (by simp) fun t n q _ _ => .handleReconfigure dt t n q⟩
  | clearFault dt => exact ⟨_, rfl, .takeChosen s dt _ (by simp) fun t n q _ _ => .handleClearFault dt t n q⟩
  | setLineProfile dt =>
    exact ⟨_, rfl, .takeChosen s dt _ (by simp) fun t n q _ _ => .profileEdit _ t n _ _ fun es _ hopen => .editsLines dt es t hopen⟩
  | setBond dt => exact ⟨_, rfl, .takeChosen s dt _ (by simp) fun t n q _ _ => .handleSetBond dt t n q⟩
  | setHostProfile dt => exact ⟨_, rfl, .takeChosen s dt _ (by simp) fun t n q _ _ => .handleSetHostProfile dt t n q⟩
  | setTiming dt =>
    exact ⟨_, rfl, .takeChosen s dt _ (by simp) fun t n q _ _ => .profileEdit _ t n _ _ fun a ha hopen => .times dt _ a t hopen ha⟩
  | commitProfile dt =>
    exact ⟨_, rfl, .takeChosen s dt _ (by simp) fun t n q _ _ => .profileEdit _ t n _ _ fun _ _ hopen => .commits dt t hopen⟩
  | reopenVote dt => exact ⟨_, rfl, .takeChosen s dt _ (by simp) fun t n q _ hstate => .handleReopenVote dt t n q hstate⟩
  | clearAll dt => exact ⟨_, rfl, .takeChosen s dt _ (by simp) fun t n q _ hstate => .handleClearAll dt t n q hstate⟩
  | queryClaim dt => exact ⟨_, rfl, .takeChosen_of_state s dt _ (by simp) handleQueryClaim_state⟩
  | readLines dt => exact ⟨_, rfl, .takeChosen_of_state s dt _ (by simp) handleReadLines_state⟩
  | queryLine dt => exact ⟨_, rfl, .takeChosen_of_state s dt _ (by simp) handleQueryLine_state⟩
  | readProfile dt => exact ⟨_, rfl, .takeChosen_of_state s dt _ (by simp) handleReadProfile_state⟩

/-- What a command has done, where its next state is given. -/
theorem exec_effect {c : Instr} {s t : State} (h : exec c s = .next t) : does c s t := by
  obtain ⟨u, hu, hdoes⟩ := exec_does c s
  cases h.symm.trans hu
  exact hdoes

/-- A step does nothing, or what the command at the front of its queue does. -/
theorem step_effect {s t : State} (h : step s = .next t) :
    t = s ∨ ∃ c rest, does c { s with pending := rest } t := by
  unfold step at h
  split at h
  · exact .inl (Host.Outcome.next.inj h).symm
  · exact .inr ⟨_, _, exec_effect h⟩

/-- What holds of a state and is kept by quiet changes, refreshes and effects is kept by every step, where it does not look at the
queue. -/
theorem step_keeps {P : State → Prop} (hqueue : ∀ s rest, P s → P { s with pending := rest })
    (hquiet : ∀ s t, quiet s t → P s → P t) (hrefresh : ∀ s t, mayRefresh s t → P s → P t)
    (heffect : ∀ c s t, Effect c s t → P s → P t) {s t : State} (h : step s = .next t) (hs : P s) : P t := by
  rcases step_effect h with rfl | ⟨c, rest, u, v, w, hu, hv, hw, ht, _⟩
  · exact hs
  · exact hquiet _ _ ht (heffect _ _ _ hw (hrefresh _ _ hv (hquiet _ _ hu (hqueue s rest hs))))

end Sys2Proof.Machine
end

section
/-! SUPPORT. The frames of the effects: which leave all but the boards, which all but the table, which the sessions and the vote. -/

namespace Sys2Proof.Machine

/-- From `s` to `t` the boards alone may change. -/
def boardsOnly (s t : State) : Prop := t = { s with boards := t.boards }

/-- Nothing changes. -/
theorem boardsOnly.refl (s : State) : boardsOnly s s := rfl

/-- One change of the boards follows another. -/
theorem boardsOnly.trans {s t u : State} (h1 : boardsOnly s t) (h2 : boardsOnly t u) : boardsOnly s u := by
  unfold boardsOnly at *
  rw [h2, h1]

/-- A change of the boards made for each host of a set. -/
theorem boardsOnly.forHosts (s : State) (w : HostSet) (f : State → HostId → State) (h : ∀ t n, boardsOnly t (f t n)) :
    boardsOnly s (s.forHosts w f) :=
  State.forHosts_induct (boardsOnly s) s w f (.refl s) fun t n _ ht => ht.trans (h t n)

/-- Session flags set (R112). -/
theorem boardsOnly.flag (s : State) (h : HostId) (f : SessionFlags → SessionFlags) : boardsOnly s (s.flag h f) := rfl

/-- A board cleared whole (R113). -/
theorem boardsOnly.clearBoard (s : State) (h : HostId) : boardsOnly s (s.clearBoard h) := rfl

/-- What a state keeps through a change of the boards. -/
theorem boardsOnly.kept {s t : State} (h : boardsOnly s t) :
    t.now = s.now ∧ t.resetn = s.resetn ∧ t.sessions = s.sessions ∧ t.slots = s.slots ∧ t.eligible = s.eligible
      ∧ t.cells = s.cells ∧ t.profile = s.profile ∧ t.vote = s.vote := by
  rw [h]
  exact ⟨rfl, rfl, rfl, rfl, rfl, rfl, rfl, rfl⟩

/-- A sampling tick changes the time, the cells and the boards alone (R75, R141). -/
theorem State.tick_frame (s : State) (levels : LineSet) :
    s.tick levels =
      { s with
        now := (s.tick levels).now, nextTick := (s.tick levels).nextTick, cells := (s.tick levels).cells
        boards := (s.tick levels).boards } := by
  have hedits (l : List HostId) (u : State) (f : HostId → Board → Board) :
      boardsOnly u (l.foldl (fun t h => t.editBoard h (f h)) u) := by
    induction l generalizing u with
    | nil => exact .refl u
    | cons h l ih => exact boardsOnly.trans (t := u.editBoard h (f h)) rfl (ih _)
  rw [State.tick, State.mapCells, hedits]

/-- A settle end changes the table alone (R45, R54). -/
theorem tableOnly.settleEnd (s : State) (i : SlotId) (r : Record) : tableOnly s (s.settleEnd i r) := by
  unfold State.settleEnd
  split
  · exact (tableOnly.enterHeld s i r).trans (.enterYielding _ i _)
  · exact ((tableOnly.enterHeld s i r).trans (.post _ _ _ _)).trans (.eligibility _)

/-- A claim granted at once changes the table alone (R21). -/
theorem tableOnly.claims (s : State) (i : SlotId) (r : Record) : tableOnly s (s.grantInto i r).eligibility :=
  (tableOnly.grantInto s i r).trans (.eligibility _)

/-- A claim queued changes the table alone (R21). -/
theorem tableOnly.queues (s : State) (i : SlotId) (r : Record) : tableOnly s (s.putRecord i r).evaluate :=
  (tableOnly.putRecord s i r).trans (.evaluate _)

/-- A SET LINE PROFILE changes the table and the line profiles alone (R125, R126). -/
theorem State.applyLineProfile_frame (s : State) (es : List (LineId × LineProfile)) :
    tableOnly (s.storeLines es) (s.applyLineProfile es) := by
  have htold : tableOnly (s.storeLines es) ((s.storeLines es).tellRest es) :=
    .mapCells _ _ fun l c => by split <;> exact ⟨rfl, rfl, rfl⟩
  unfold State.applyLineProfile
  dsimp only
  split
  · exact htold
  · exact htold.trans (.freeAll _ _ _)

end Sys2Proof.Machine
end

section
/-! SUPPORT. Every step keeps the vote (R133, R135): what joins, leaves or votes is followed by the completion test, which leaves no
decided vote running. -/

namespace Sys2Proof.Machine

/-- From `s` to `t` nothing changes that the vote is read off: session states, vote flags, the vote, the profile state. -/
def sameVote (s t : State) : Prop :=
  (∀ h, (t.sessions.get h).state = (s.sessions.get h).state ∧ (t.sessions.get h).voted = (s.sessions.get h).voted)
    ∧ t.vote = s.vote ∧ t.profile.state = s.profile.state

/-- Where the sessions, the vote and the profile stand, so does what the vote is read off. -/
theorem sameVote.of_eq {s t : State} (hsessions : t.sessions = s.sessions) (hvote : t.vote = s.vote)
    (hprofile : t.profile = s.profile) : sameVote s t :=
  ⟨fun h => by rw [hsessions]; exact ⟨rfl, rfl⟩, hvote, by rw [hprofile]⟩

/-- What the vote is read off stands through a change of the table. -/
theorem tableOnly.sameVote {s t : State} (h : tableOnly s t) : sameVote s t := by
  obtain ⟨_, _, _, _, _, hsessions, hprofile, hvote⟩ := h.kept
  exact .of_eq hsessions hvote hprofile

/-- What the vote is read off stands through a change of the boards. -/
theorem boardsOnly.sameVote {s t : State} (h : boardsOnly s t) : sameVote s t := by
  obtain ⟨_, _, hsessions, _, _, _, hprofile, hvote⟩ := h.kept
  exact .of_eq hsessions hvote hprofile

/-- The vote stays right where what it is read off stands. -/
theorem State.voteRight.of_sameVote {s t : State} (hs : s.voteRight) (h : sameVote s t) : t.voteRight := by
  obtain ⟨hsessions, hvote, hprofile⟩ := h
  unfold State.voteRight at *
  simpa only [hvote, hprofile, fun n => (hsessions n).1, fun n => (hsessions n).2] using hs

/-- While no vote runs the vote flags are clear (R133). -/
theorem State.voteRight.voted_of_idle {s : State} (h : s.voteRight) (hidle : s.vote.running = false) (n : HostId) :
    (s.sessions.get n).voted = false := by
  obtain ⟨hflags, hvote⟩ := h
  rw [hidle, if_neg (by simp)] at hvote
  obtain ⟨_, _, hvoted⟩ := hvote
  rw [hflags, hvoted, has_zero']

/-- A vote is right while none runs exactly when nothing is left of one (R133). -/
theorem State.voteRight_of_idle {s : State} (hvote : s.vote = { running := false, deadline := none, required := 0#4, voted := 0#4 })
    (hflags : ∀ h, (s.sessions.get h).voted = false) : s.voteRight := by
  refine ⟨fun h => ?_, ?_⟩
  · rw [hflags, hvote, has_zero']
  · rw [hvote]
    exact ⟨rfl, rfl, rfl⟩

/-- The vote of `s` is right, and so is that of `t`, in which no decided vote runs if none did in `s`. -/
def keepsVote (s t : State) : Prop := s.voteRight → t.voteRight ∧ (s.voteUndecided → t.voteUndecided)

/-- Where what the vote is read off stands, the vote is kept. -/
theorem keepsVote.of_sameVote {s t : State} (h : sameVote s t) : keepsVote s t :=
  fun hs => ⟨hs.of_sameVote h, fun hu => by unfold State.voteUndecided at *; rwa [h.2.1]⟩

/-- A vote that has ended is right, and runs no longer (R133). -/
theorem keepsVote.of_ended {s t : State}
    (hvote : t.vote = { running := false, deadline := none, required := 0#4, voted := 0#4 })
    (hflags : ∀ h, (t.sessions.get h).voted = false) : keepsVote s t :=
  fun _ => ⟨State.voteRight_of_idle hvote hflags, fun _ hrunning => by rw [hvote] at hrunning; cases hrunning⟩

/-- The completion test keeps the vote right and leaves no decided one running (R135). -/
theorem State.voteRight.completionTest {s : State} (h : s.voteRight) :
    s.completionTest.voteRight ∧ s.completionTest.voteUndecided := by
  rcases s.completionTest_cases with ⟨_, _, heq⟩ | ⟨_, _, _, heq⟩ | ⟨hcase, heq⟩
  · rw [heq]
    exact ⟨State.voteRight_of_idle rfl fun n => by simp, fun hrunning => by cases hrunning⟩
  · rw [heq, State.forHosts_flag_frame]
    exact ⟨State.voteRight_of_idle rfl fun n => by simp, fun hrunning => by cases hrunning⟩
  · rw [heq]
    refine ⟨h, fun hrunning => ?_⟩
    rcases hcase with hidle | ⟨_, hne⟩
    · rw [hidle] at hrunning
      cases hrunning
    · exact hne

/-- A change made before a completion test that leaves the vote right keeps the vote. -/
theorem keepsVote.of_tested {s t : State} (h : s.voteRight → t.voteRight) : keepsVote s t.completionTest :=
  fun hs => ⟨(h hs).completionTest.1, fun _ => (h hs).completionTest.2⟩

/-! ## Hosts that join and leave -/

/-- The sessions of `t` are those of `s` but for host `n`'s, which is in state `st` and unvoted. -/
def onlySession (s t : State) (n : HostId) (st : SessState) : Prop :=
  (t.sessions.get n).state = st ∧ (t.sessions.get n).voted = false
    ∧ ∀ h, h ≠ n → (t.sessions.get h).state = (s.sessions.get h).state ∧ (t.sessions.get h).voted = (s.sessions.get h).voted

/-- A host attached or gone while the vote, with its sets `req` and `vot`, follows it: the vote stays right. -/
theorem State.voteRight.rejoin {s t : State} (hs : s.voteRight) {n : HostId} {st : SessState} (h : onlySession s t n st)
    (hrunning : s.vote.running = true) (hvote : t.vote.running = true ∧ t.vote.deadline = s.vote.deadline)
    (hprofile : t.profile.state = s.profile.state)
    (hsets : ∀ h, has t.vote.required h = (if h = n then decide (st = .attached) else has s.vote.required h)
      ∧ has t.vote.voted h = (if h = n then false else has s.vote.voted h)) : t.voteRight := by
  obtain ⟨hflags, hbody⟩ := hs
  rw [hrunning, if_pos rfl] at hbody
  obtain ⟨hcommitted, hdeadline, hsubset⟩ := hbody
  obtain ⟨hstate, hvoted, hothers⟩ := h
  refine ⟨fun m => ?_, ?_⟩
  · rw [(hsets m).2]
    by_cases hm : m = n
    · subst hm; rw [if_pos rfl, hvoted]
    · rw [if_neg hm, (hothers m hm).2, hflags]
  · rw [hvote.1, if_pos rfl, hvote.2, hprofile]
    refine ⟨hcommitted, hdeadline, fun m => ?_⟩
    rw [(hsets m).1, (hsets m).2]
    by_cases hm : m = n
    · subst hm; simp [hstate]
    · simpa [hm, (hothers m hm).1] using hsubset m

/-- While no vote runs, a host may attach or go unvoted. -/
theorem keepsVote.of_idle {s t : State} {n : HostId} {st : SessState} (h : onlySession s t n st)
    (hidle : s.vote.running = false) (hvote : t.vote = s.vote) : keepsVote s t := by
  refine fun hs => ⟨⟨fun m => ?_, ?_⟩, fun _ hrunning => ?_⟩
  · rw [hvote]
    by_cases hm : m = n
    · subst hm; rw [h.2.1, ← hs.1, hs.voted_of_idle hidle]
    · rw [(h.2.2 m hm).2, hs.1]
  · rw [hvote, hidle, if_neg (by simp)]
    simpa [hidle] using hs.2
  · rw [hvote, hidle] at hrunning
    cases hrunning

/-- A host that joins (R97, R135). -/
theorem keepsVote.hostJoined {s t : State} {n : HostId} (h : onlySession s t n .attached) (hvote : t.vote = s.vote)
    (hprofile : t.profile = s.profile) : keepsVote s (t.hostJoined n) := by
  have hdeadline : t.vote.deadline = s.vote.deadline := by rw [hvote]
  unfold State.hostJoined
  split
  · rename_i hrunning
    exact .of_tested fun hs => hs.rejoin h (hvote ▸ hrunning) ⟨hrunning, hdeadline⟩
      (congrArg Profile.state hprofile) fun m => by by_cases hm : m = n <;> simp [State.postVoteOpen, State.flag, hvote, hm]
  · rename_i hidle
    exact .of_idle h (by simpa [hvote] using hidle) hvote

/-- A host that restarts (R97, R135). -/
theorem keepsVote.hostRestarted {s t : State} {n : HostId} (hstate : (s.sessions.get n).state = .attached)
    (h : onlySession s t n .attached) (hvote : t.vote = s.vote) (hprofile : t.profile = s.profile) :
    keepsVote s (t.hostRestarted n) := by
  have hdeadline : t.vote.deadline = s.vote.deadline := by rw [hvote]
  unfold State.hostRestarted
  split
  · rename_i hrunning
    refine .of_tested fun hs => hs.rejoin h (hvote ▸ hrunning) ⟨hrunning, hdeadline⟩
      (congrArg Profile.state hprofile) fun m => ?_
    have hrequired : has s.vote.required n = true := by
      obtain ⟨_, hbody⟩ := hs
      rw [← hvote, hrunning, if_pos rfl] at hbody
      obtain ⟨_, _, hsubset⟩ := hbody
      simpa [hvote, hstate] using (hsubset n).1
    by_cases hm : m = n
    · subst hm; simp [State.postVoteOpen, State.flag, hvote, hrequired]
    · simp [State.postVoteOpen, State.flag, hvote, hm]
  · rename_i hidle
    exact .of_idle h (by simpa [hvote] using hidle) hvote

/-- A host that leaves (R97, R135). -/
theorem keepsVote.hostLeft {s t : State} {n : HostId} {st : SessState} (hst : st ≠ .attached) (h : onlySession s t n st)
    (hvote : t.vote = s.vote) (hprofile : t.profile = s.profile) : keepsVote s (t.hostLeft n) := by
  have hdeadline : t.vote.deadline = s.vote.deadline := by rw [hvote]
  unfold State.hostLeft
  split
  · rename_i hrunning
    exact .of_tested fun hs => hs.rejoin h (hvote ▸ hrunning) ⟨hrunning, hdeadline⟩
      (congrArg Profile.state hprofile) fun m => by by_cases hm : m = n <;> simp [hvote, hm, hst]
  · rename_i hidle
    exact .of_idle h (by simpa [hvote] using hidle) hvote

/-- One session put in place unvoted, and then a change of table and boards, change that session alone. -/
theorem onlySession.of_sessions {s t : State} {n : HostId} {c : Session} (h : t.sessions = s.sessions.set n c)
    (hvoted : c.voted = false) : onlySession s t n c.state := by
  refine ⟨by rw [h, Table.get_set_self], by rw [h, Table.get_set_self]; exact hvoted, fun m hm => ?_⟩
  rw [h, Table.get_set_ne _ _ hm]
  exact ⟨rfl, rfl⟩

/-! ## Votes cast -/

/-- A vote starts (R134). -/
theorem keepsVote.startVote (s : State) (n : HostId) (hidle : s.vote.running = false)
    (hcommitted : s.profile.state = .committed) (hstate : (s.sessions.get n).state = .attached) :
    keepsVote s (s.startVote n) := by
  refine .of_tested fun hs => State.voteRight.of_sameVote ?_ (boardsOnly.sameVote (.forHosts _ _ _ fun t m => .flag t m _))
  refine ⟨fun m => ?_, ?_⟩
  · by_cases hm : m = n
    · subst hm; simp
    · simp [Table.get_set_ne, hm, hs.voted_of_idle hidle]
  · rw [State.setVoted_vote, if_pos rfl]
    refine ⟨hcommitted, rfl, fun m => ?_⟩
    by_cases hm : m = n
    · subst hm; simp [State.attachedSet, hstate]
    · simp [State.attachedSet, Table.get_set_ne, hm]

/-- A vote is counted (R134). -/
theorem keepsVote.countVote (s : State) (n : HostId) (hrunning : s.vote.running = true)
    (hstate : (s.sessions.get n).state = .attached) : keepsVote s (s.countVote n) := by
  refine .of_tested fun ⟨hflags, hbody⟩ => ?_
  rw [hrunning, if_pos rfl] at hbody
  obtain ⟨hcommitted, hdeadline, hsubset⟩ := hbody
  refine ⟨fun m => ?_, ?_⟩
  · by_cases hm : m = n
    · subst hm; simp
    · simp [Table.get_set_ne, hm, hflags]
  · simp only [State.setVoted_vote, hrunning, if_true]
    refine ⟨hcommitted, hdeadline, fun m => ?_⟩
    by_cases hm : m = n
    · subst hm; simpa [hstate] using (hsubset m).1
    · simpa [Table.get_set_ne, hm] using hsubset m

/-- REOPEN VOTE counted (R134). -/
theorem keepsVote.reopenVote (s : State) (n : HostId) (hcommitted : s.profile.state = .committed)
    (hstate : (s.sessions.get n).state = .attached) : keepsVote s (s.reopenVote n) := by
  unfold State.reopenVote
  split
  · rename_i hrunning
    split
    · exact fun hs => ⟨hs, id⟩
    · exact .countVote s n hrunning hstate
  · rename_i hidle
    exact .startVote s n (by simpa using hidle) hcommitted hstate

/-! ## Every effect -/

/-- A DETACH or a lapse: the session ends, its records are freed, its board is cleared, and the host leaves (R99, R100). -/
theorem keepsVote.leaves {s t : State} {n : HostId} {st : SessState} (hst : st ≠ .attached)
    (h : boardsOnly ((s.putSession n ((s.sessions.get n).ended st)).freeHost n) t) : keepsVote s (t.hostLeft n) := by
  obtain ⟨_, _, _, _, _, hsessions, hprofile, hvote⟩ :=
    (tableOnly.freeHost (s.putSession n ((s.sessions.get n).ended st)) n).kept
  obtain ⟨_, _, hsessions', _, _, _, hprofile', hvote'⟩ := h.kept
  exact .hostLeft hst (.of_sessions (c := (s.sessions.get n).ended st) (hsessions'.trans hsessions) rfl)
    (hvote'.trans hvote) (hprofile'.trans hprofile)

/-- An ATTACH from DETACHED or LAPSED (R95). -/
theorem keepsVote.beginSession (s : State) (n : HostId) (p : Nat) : keepsVote s (s.beginSession n p) :=
  .hostJoined (.of_sessions (c := (s.sessions.get n).begun p (s.heartbeatEnd p)) rfl rfl) rfl rfl

/-- A restart (R96). -/
theorem keepsVote.restartSession (s : State) (n : HostId) (p : Nat) (hstate : (s.sessions.get n).state = .attached) :
    keepsVote s (s.restartSession n p) := by
  obtain ⟨_, _, _, _, _, hsessions, hprofile, hvote⟩ := (tableOnly.freeHost s n).kept
  unfold State.restartSession
  refine .hostRestarted hstate (.of_sessions (c := (s.sessions.get n).begun p (s.heartbeatEnd p)) ?_ rfl) ?_ ?_
  · simp [hsessions, Session.begun]
  · simpa using hvote
  · simpa using hprofile

/-- A DETACH from LAPSED (R100). -/
theorem keepsVote.detachLapsed (s : State) (n : HostId) (hstate : (s.sessions.get n).state ≠ .attached) :
    keepsVote s (s.detachLapsed n) := by
  have honly : onlySession s (s.detachLapsed n) n .detached :=
    .of_sessions (c := (s.sessions.get n).ended .detached) rfl rfl
  cases hrunning : s.vote.running with
  | false => exact .of_idle honly hrunning rfl
  | true =>
    refine fun hs => ⟨hs.rejoin honly hrunning ⟨hrunning, rfl⟩ rfl fun m => ?_, id⟩
    have hbody := hs.2
    rw [hrunning, if_pos rfl] at hbody
    obtain ⟨_, _, hsubset⟩ := hbody
    by_cases hm : m = n
    · subst hm
      have hrequired : has s.vote.required m = false := by simpa [hstate] using (hsubset m).1
      have hvoted : has s.vote.voted m = false := by simpa [hrequired] using (hsubset m).2
      simp [State.detachLapsed, hrequired, hvoted]
    · simp [State.detachLapsed, hm]

/-- CLEAR ALL ends the vote (R137). -/
theorem keepsVote.clearAll (s : State) (n : HostId) : keepsVote s (s.clearAll n) := by
  have hlapsed : (∀ h, ((s.endVote.forHosts (lapsedBy s n) fun t h =>
      t.putSession h ((t.sessions.get h).ended .lapsed)).sessions.get h).voted = false)
      ∧ (s.endVote.forHosts (lapsedBy s n) fun t h => t.putSession h ((t.sessions.get h).ended .lapsed)).vote
        = s.endVote.vote := by
    refine State.forHosts_induct (fun t => (∀ h, (t.sessions.get h).voted = false) ∧ t.vote = s.endVote.vote) _ _ _
      ⟨fun h => by simp, rfl⟩ fun t h _ ⟨hflags, hvote⟩ => ⟨fun m => ?_, hvote⟩
    rw [State.putSession_sessions, Table.get_set]
    split
    · rfl
    · exact hflags m
  obtain ⟨hflags, hvote⟩ := hlapsed
  have hcleared (u : State) :
      boardsOnly u (u.forHosts (lapsedBy s n) fun t h => (t.clearBoard h).flag h fun f => { f with lapsedCleared := true }) :=
    .forHosts u _ _ fun t h => .trans (.clearBoard t h) (.flag _ h _)
  have hfreed := tableOnly.freeAll (s.endVote.forHosts (lapsedBy s n) fun t h =>
    t.putSession h ((t.sessions.get h).ended .lapsed)) (slotsWhere s.slots fun _ => true) .clearAll
  have hsame := hfreed.sameVote
  have hsame' := (hcleared ((s.endVote.forHosts (lapsedBy s n) fun t h =>
    t.putSession h ((t.sessions.get h).ended .lapsed)).freeAll (slotsWhere s.slots fun _ => true) .clearAll)).sameVote
  exact .of_ended (hsame'.2.1.trans (hsame.2.1.trans hvote)) fun h =>
    (hsame'.1 h).2.trans ((hsame.1 h).2.trans (hflags h))

/-- Every effect keeps the vote. -/
theorem Effect.keepsVote {c : Instr} {s t : State} (h : Effect c s t) : keepsVote s t := by
  cases h with
  | stands => exact fun hs => ⟨hs, id⟩
  | falls dt _ _ h =>
    obtain rfl := Host.Outcome.next.inj h
    exact .of_ended rfl fun h => by simp [Session.reset]
  | rises => exact .of_sameVote (.of_eq rfl rfl rfl)
  | begins dt n p => exact .beginSession s n p
  | restarts dt n p _ hstate => exact .restartSession s n p hstate
  | detaches dt n => exact .leaves (by simp) (.clearBoard _ n)
  | closes dt n _ hstate => exact .detachLapsed s n hstate
  | beats dt n p =>
    refine .of_sameVote ⟨fun h => ?_, rfl, rfl⟩
    rw [State.putSession_sessions, Table.get_set]
    split
    · rename_i hn; subst hn; exact ⟨rfl, rfl⟩
    · exact ⟨rfl, rfl⟩
  | lapses n => exact .leaves (by simp) (.trans (.clearBoard _ n) (.flag _ n _))
  | claims => exact .of_sameVote (tableOnly.claims s _ _).sameVote
  | queues => exact .of_sameVote (tableOnly.queues s _ _).sameVote
  | releases => exact .of_sameVote (tableOnly.freeAll s _ _).sameVote
  | settles => exact .of_sameVote (tableOnly.settleEnd s _ _).sameVote
  | revokes => exact .of_sameVote (tableOnly.freeAll s _ _).sameVote
  | expires => exact .of_sameVote (tableOnly.freeAll s _ _).sameVote
  | levels => exact .of_sameVote (.of_eq rfl rfl rfl)
  | reconfigures => exact .of_sameVote (.of_eq rfl rfl rfl)
  | unparks => exact .of_sameVote (.of_eq rfl rfl rfl)
  | fetches => exact .of_sameVote (.of_eq rfl rfl rfl)
  | editsLines dt es =>
    obtain ⟨hsessions, hvote, hprofile⟩ := (s.applyLineProfile_frame es).sameVote
    exact .of_sameVote ⟨hsessions, hvote, hprofile⟩
  | bonds => exact .of_sameVote ⟨fun _ => ⟨rfl, rfl⟩, rfl, rfl⟩
  | editsHost => exact .of_sameVote ⟨fun _ => ⟨rfl, rfl⟩, rfl, rfl⟩
  | times => exact .of_sameVote ⟨fun _ => ⟨rfl, rfl⟩, rfl, rfl⟩
  | commits dt _ hopen =>
    refine fun hs => ⟨⟨hs.1, ?_⟩, id⟩
    have hbody := hs.2
    cases hrunning : s.vote.running with
    | true => simp [hrunning, hopen] at hbody
    | false => simpa [hrunning] using hbody
  | votes dt n _ hstate hcommitted => exact .reopenVote s n hcommitted hstate
  | clears dt n => exact .clearAll s n
  | samples levels =>
    rw [State.tick_frame]
    exact .of_sameVote (.of_eq rfl rfl rfl)
  | unblanks => exact .of_sameVote (.of_eq rfl rfl rfl)
  | failsVote =>
    rw [State.forHosts_flag_frame]
    exact .of_ended rfl fun h => by simp

/-- Quiet changes leave all that the vote is read off. -/
theorem quiet.sameVote {s t : State} (h : quiet s t) : sameVote s t := by
  obtain ⟨_, _, _, hsessions, _, _, _, _, hprofile, hvote⟩ := h.kept
  exact .of_eq hsessions hvote hprofile

/-- A refresh leaves all that the vote is read off (R93). -/
theorem mayRefresh.sameVote {s t : State} (h : mayRefresh s t) : sameVote s t := by
  refine ⟨fun n => ?_, ?_⟩
  · obtain ⟨hstate, _, _, hvoted⟩ := h.session n
    exact ⟨hstate, hvoted⟩
  · rw [h.frame]
    exact ⟨rfl, rfl⟩

/-- Settles O60: a host that joins, leaves, restarts or votes moves the sets as its session moves, and the completion test that follows
ends a vote that is decided; every other effect leaves all that the vote is read off. -/
theorem everyStepKeepsTheVote : Obligations.EveryStepKeepsTheVote := by
  unfold Obligations.EveryStepKeepsTheVote
  intro s t hs hstep
  have kept {P : State → Prop} (hqueue : ∀ s rest, P s → P { s with pending := rest })
      (hkeeps : ∀ s t, keepsVote s t → P s → P t) (h : P s) : P t :=
    step_keeps hqueue (fun _ _ h => hkeeps _ _ (.of_sameVote h.sameVote)) (fun _ _ h => hkeeps _ _ (.of_sameVote h.sameVote))
      (fun _ _ _ h => hkeeps _ _ h.keepsVote) hstep h
  refine ⟨kept (P := State.voteRight) (fun _ _ h => h) (fun _ _ h hs => (h hs).1) hs, fun hu => ?_⟩
  exact (kept (P := fun u => u.voteRight ∧ u.voteUndecided) (fun _ _ h => h)
    (fun _ _ h hs => ⟨(h hs.1).1, (h hs.1).2 hs.2⟩) ⟨hs, hu⟩).2

end Sys2Proof.Machine
end

section
/-! SUPPORT. The moves of the claim table's records: a record is freed, granted by a walk, made to yield or returned to HELD. What one
move does to slots, cells and boards, said once for each part of the state. -/

namespace Sys2Proof.Machine

/-! ## Notices found by their ticket -/

/-- The notice a list of notices holds for a ticket. -/
def noticeIn (l : List (Byte × NoticeKind)) (tk : Byte) : Option NoticeKind :=
  (l.find? fun x => x.1 == tk).map fun x => x.2

/-- A host's notice for a ticket is the one its board's list holds. -/
theorem State.noticeOf_eq (s : State) (h : HostId) (tk : Byte) : s.noticeOf h tk = noticeIn (s.boards.get h).notices tk := rfl

/-- A post is found under its ticket (R107). -/
theorem noticeIn_postNotice_self (t : Byte) (k : NoticeKind) (l : List (Byte × NoticeKind)) :
    noticeIn (postNotice t k l) t = some k := by
  induction l with
  | nil => simp [postNotice, noticeIn]
  | cons x rest ih =>
    obtain ⟨u, j⟩ := x
    simp only [postNotice]
    split
    · simp [noticeIn]
    · split
      · simp [noticeIn]
      · rename_i hne
        simpa [noticeIn, List.find?_cons, Ne.symm hne] using ih

/-- A post leaves what is found under another ticket (R107). -/
theorem noticeIn_postNotice_ne {t u : Byte} (h : u ≠ t) (k : NoticeKind) (l : List (Byte × NoticeKind)) :
    noticeIn (postNotice t k l) u = noticeIn l u := by
  induction l with
  | nil => simp [postNotice, noticeIn, Ne.symm h]
  | cons x rest ih =>
    obtain ⟨v, j⟩ := x
    simp only [postNotice]
    split
    · simp [noticeIn, Ne.symm h]
    · split
      · rename_i heq
        subst heq
        simp [noticeIn, Ne.symm h]
      · simp only [noticeIn, List.find?_cons] at ih ⊢
        split <;> simp_all

/-- An unpost leaves nothing under its ticket (R8). -/
theorem noticeIn_unpost_self (b : Board) (t : Byte) : noticeIn (b.unpost t).notices t = none := by
  simp [noticeIn, Board.unpost]

/-- An unpost leaves what is found under another ticket (R8). -/
theorem noticeIn_unpost_ne (b : Board) {t u : Byte} (h : u ≠ t) : noticeIn (b.unpost t).notices u = noticeIn b.notices u := by
  have hkeep : (fun x : Byte × NoticeKind => decide ((x.1 != t) = true ∧ (x.1 == u) = true)) = fun x => x.1 == u := by
    funext x
    by_cases hx : x.1 = u
    · simp [hx, h]
    · simp [hx]
  rw [noticeIn, noticeIn, Board.unpost, List.find?_filter]
  exact congrArg (fun p => (List.find? p b.notices).map fun x => x.2) hkeep

/-! ## What a freeing leaves on a board -/

/-- The notice a freeing posts for the record's ticket, if its cause posts one (R8). -/
def causeNotice : FreeCause → Option NoticeKind
  | .waitExpired => some .waitExpired
  | .denied => some .denied
  | .revoked => some .revoked
  | .released | .sessionEnd | .clearAll => none

/-- The owner's board after a freeing (R7, R8). -/
def Record.freedBoard (r : Record) (cause : FreeCause) (b : Board) : Board :=
  (b.clearLines r.lineSet).afterFreeing cause r.ticket

/-- A freeing leaves the session flags, and clears the line flags of the record's lines alone (R7, R8). -/
theorem Record.freedBoard_lines (r : Record) (cause : FreeCause) (b : Board) :
    (r.freedBoard cause b).flags = b.flags
      ∧ (r.freedBoard cause b).change = b.change &&& ~~~ r.lineSet
      ∧ (r.freedBoard cause b).overrun = b.overrun &&& ~~~ r.lineSet
      ∧ (r.freedBoard cause b).fault = b.fault &&& ~~~ r.lineSet := by
  cases cause <;> exact ⟨rfl, rfl, rfl, rfl⟩

/-- A freeing leaves what is found under other tickets (R8). -/
theorem Record.freedBoard_notice_ne (r : Record) (cause : FreeCause) (b : Board) {tk : Byte} (h : tk ≠ r.ticket) :
    noticeIn (r.freedBoard cause b).notices tk = noticeIn b.notices tk := by
  cases cause with
  | released => exact noticeIn_unpost_ne _ h
  | waitExpired | denied | revoked => exact noticeIn_postNotice_ne h _ _
  | sessionEnd | clearAll => rfl

/-- What a freeing leaves under the record's ticket: its own notice, or none after a release (R8). -/
theorem Record.freedBoard_notice_self (r : Record) {cause : FreeCause} (hcause : cause ≠ .sessionEnd ∧ cause ≠ .clearAll)
    (b : Board) : noticeIn (r.freedBoard cause b).notices r.ticket = causeNotice cause := by
  cases cause with
  | released => exact noticeIn_unpost_self _ _
  | waitExpired | denied | revoked => exact noticeIn_postNotice_self _ _ _
  | sessionEnd => exact absurd rfl hcause.1
  | clearAll => exact absurd rfl hcause.2

/-- A freeing of a slot that holds a record (R7). -/
theorem State.free_of_some {s : State} {i : SlotId} {r : Record} (h : s.slots.get i = some r) (cause : FreeCause) :
    s.free i cause =
      { (if r.live then s.reportFree r else s).editBoard r.owner (r.freedBoard cause) with
        slots := (if r.live then s.reportFree r else s).slots.set i none } := by
  unfold State.free
  rw [h]
  rfl

/-- A freeing's boards (R7, R8). -/
theorem State.free_boards {s : State} {i : SlotId} {r : Record} (h : s.slots.get i = some r) (cause : FreeCause)
    (m : HostId) :
    (s.free i cause).boards.get m =
      if m = r.owner then
        { r.freedBoard cause (s.boards.get m) with attn := !(r.freedBoard cause (s.boards.get m)).isEmpty }
      else s.boards.get m := by
  rw [State.free_of_some h]
  split <;> simp only [State.editBoard_boards, State.reportFree_boards, Table.get_set] <;> split <;> simp_all

/-- A freeing's cells (R7, R73). -/
theorem State.free_cells {s : State} {i : SlotId} {r : Record} (h : s.slots.get i = some r) (cause : FreeCause)
    (l : LineId) :
    (s.free i cause).cells.get l =
      if r.state ≠ .waiting ∧ r.names l = true then (s.cells.get l).release.present (s.restOf l) else s.cells.get l := by
  rw [State.free_of_some h]
  by_cases hlive : r.live = true
  · have hstate := (Record.live_iff r).mp hlive
    simp [hlive, hstate]
  · have hstate : r.state = .waiting := by simpa using hlive
    simp [hlive, hstate]

/-! ## Moves -/

/-- The record `r` of slot `i` of `s` moves: it is freed, granted on lines that have no holder, made to yield, or returned to HELD. -/
inductive Moves (cause : FreeCause) (s : State) (i : SlotId) (r : Record) : State → Prop
  /-- Steps 1 to 6 of R7. -/
  | freed : Moves cause s i r (s.free i cause)
  /-- A grant of a walk (R35). -/
  | granted (hwaiting : r.state = .waiting) (hidle : ∀ l, r.names l = true → ¬ s.lineHeld l) : Moves cause s i r (s.grant i r)
  /-- An entry to YIELDING (R53). -/
  | yielded (hheld : r.state = .held) : Moves cause s i r (s.enterYielding i r)
  /-- A return to HELD (R56). -/
  | returned (hyielding : r.state = .yielding) : Moves cause s i r (s.returnHeld i r)

/-- What a move can leave of the record `r` in its slot at time `now`. -/
inductive Record.Moved (now settle window : Nat) (r : Record) : Option Record → Prop
  | freed : r.Moved now settle window none
  | granted (hwaiting : r.state = .waiting) : r.Moved now settle window (some (r.granted now settle))
  | yielded (hheld : r.state = .held) : r.Moved now settle window (some (r.inYielding now window))
  | returned (hyielding : r.state = .yielding) : r.Moved now settle window (some r.inHeld)

/-- What a move leaves in a slot is the record's still: owner, ticket, lines and the rest of what it was made with. -/
theorem Record.Moved.keeps {now settle window : Nat} {r r' : Record} (h : r.Moved now settle window (some r')) :
    r'.owner = r.owner ∧ r'.ticket = r.ticket ∧ r'.priority = r.priority ∧ r'.entry = r.entry ∧ r'.lines = r.lines
      ∧ r'.preempt = r.preempt ∧ r'.waitLimit = r.waitLimit := by
  cases h with
  | granted =>
    unfold Record.granted Record.inHeld
    split <;> exact ⟨rfl, rfl, rfl, rfl, rfl, rfl, rfl⟩
  | yielded => exact ⟨rfl, rfl, rfl, rfl, rfl, rfl, rfl⟩
  | returned => exact ⟨rfl, rfl, rfl, rfl, rfl, rfl, rfl⟩

/-- A move leaves no WAITING record. -/
theorem Record.Moved.live {now settle window : Nat} {r r' : Record} (h : r.Moved now settle window (some r')) :
    r'.state ≠ .waiting := by
  cases h with
  | granted => exact r.granted_live _ _
  | yielded => simp [Record.inYielding]
  | returned => simp [Record.inHeld]

/-- A move never leaves a record as it was. -/
theorem Record.Moved.ne {now settle window : Nat} {r : Record} (h : r.Moved now settle window (some r)) : False := by
  generalize hx : some r = x at h
  cases h with
  | freed => cases hx
  | granted hwaiting =>
    obtain hr := Option.some.inj hx
    exact r.granted_live now settle (hr ▸ hwaiting)
  | yielded hheld =>
    have := congrArg Record.state (Option.some.inj hx)
    simp [Record.inYielding, hheld] at this
  | returned hyielding =>
    have := congrArg Record.state (Option.some.inj hx)
    simp [Record.inHeld, hyielding] at this

section

variable {cause : FreeCause} {s t : State} {i : SlotId} {r : Record}

/-- A move changes the table alone. -/
theorem Moves.tableOnly (h : Moves cause s i r t) : tableOnly s t := by
  cases h with
  | freed => exact .free s i cause
  | granted => exact .grant s i r
  | yielded => exact .enterYielding s i r
  | returned => exact .returnHeld s i r

/-- A move changes its own slot alone. -/
theorem Moves.slots (h : Moves cause s i r t) :
    r.Moved s.now s.profile.settle s.profile.yieldWindow (t.slots.get i) ∧ ∀ j, j ≠ i → t.slots.get j = s.slots.get j := by
  cases h with
  | freed =>
    refine ⟨?_, fun j hj => by simp [hj]⟩
    rw [State.free_slots, if_pos rfl]
    exact .freed
  | granted hwaiting =>
    refine ⟨?_, fun j hj => by rw [State.grant_slots, Table.get_set_ne _ _ hj]⟩
    rw [State.grant_slots, Table.get_set_self]
    exact .granted hwaiting
  | yielded hheld =>
    refine ⟨?_, fun j hj => by simp [State.enterYielding, Table.get_set_ne _ _ hj]⟩
    simp only [State.enterYielding, State.post_slots, State.reportPass_slots, State.putRecord_slots, Table.get_set_self]
    exact .yielded hheld
  | returned hyielding =>
    refine ⟨?_, fun j hj => by simp [State.returnHeld, Table.get_set_ne _ _ hj]⟩
    simp only [State.returnHeld, State.post_slots, State.reportPass_slots, State.putRecord_slots, Table.get_set_self]
    exact .returned hyielding

/-- The notice a move leaves under the record's ticket, given what stood there before (R8, R35, R53, R56). -/
def Record.movedNotice (r : Record) (cause : FreeCause) (settle : Nat) (x : Option Record) (before : Option NoticeKind) :
    Option NoticeKind :=
  match x with
  | none => if cause = .sessionEnd ∨ cause = .clearAll then before else causeNotice cause
  | some r' =>
    if r.state = .waiting then (if settle = 0 then some .granted else before)
    else if r'.state = .yielding then some .revokeNotice else some .revokeWithdrawn

/-- The board of the record's owner after a move. -/
inductive Board.MovedBy (cause : FreeCause) (settle : Nat) (r : Record) (b : Board) : Option Record → Board → Prop
  | freed : b.MovedBy cause settle r none (r.freedBoard cause b)
  | silent (r' : Record) (hwaiting : r.state = .waiting) (hsettle : settle ≠ 0) : b.MovedBy cause settle r (some r') b
  | posted (r' : Record) (k : NoticeKind)
    (hk : r.movedNotice cause settle (some r') (noticeIn b.notices r.ticket) = some k) :
    b.MovedBy cause settle r (some r') (b.post r.ticket k)

/-- A move edits the board of the record's owner alone, as the record's slot tells; ATTN follows the board (R8, R35, R53, R56). -/
theorem Moves.boards (h : Moves cause s i r t) (hrec : s.slots.get i = some r) :
    (∃ b, (s.boards.get r.owner).MovedBy cause s.profile.settle r (t.slots.get i) b
        ∧ (t.boards.get r.owner = { b with attn := !b.isEmpty }
          ∨ (b = s.boards.get r.owner ∧ t.boards.get r.owner = b)))
      ∧ ∀ m, m ≠ r.owner → t.boards.get m = s.boards.get m := by
  cases h with
  | freed =>
    refine ⟨⟨r.freedBoard cause (s.boards.get r.owner), ?_, .inl ?_⟩, fun m hm => ?_⟩
    · rw [State.free_slots, if_pos rfl]
      exact .freed
    · rw [State.free_boards hrec, if_pos rfl]
    · rw [State.free_boards hrec, if_neg hm]
  | granted hwaiting =>
    rw [State.grant_slots, Table.get_set_self]
    unfold State.grant
    split
    · rename_i hsettle
      refine ⟨⟨_, .posted _ .granted (by simp [Record.movedNotice, hwaiting, hsettle]), .inl ?_⟩, fun m hm => ?_⟩
      · simp
      · simp [Table.get_set_ne _ _ hm]
    · rename_i hsettle
      exact ⟨⟨_, .silent _ hwaiting hsettle, .inr ⟨rfl, by simp⟩⟩, fun m _ => by simp⟩
  | yielded hheld =>
    have hslot : (s.enterYielding i r).slots.get i = some (r.asYielding s.now s.profile.yieldWindow) := by
      simp [State.enterYielding]
    rw [hslot]
    refine ⟨⟨_, .posted _ .revokeNotice (by simp [Record.movedNotice, hheld, Record.asYielding]), .inl ?_⟩, fun m hm => ?_⟩
    · simp [State.enterYielding]
    · simp [State.enterYielding, Table.get_set_ne _ _ hm]
  | returned hyielding =>
    have hslot : (s.returnHeld i r).slots.get i = some r.asHeld := by simp [State.returnHeld]
    rw [hslot]
    refine ⟨⟨_, .posted _ .revokeWithdrawn (by simp [Record.movedNotice, hyielding, Record.asHeld]), .inl ?_⟩,
      fun m hm => ?_⟩
    · simp [State.returnHeld]
    · simp [State.returnHeld, Table.get_set_ne _ _ hm]

/-- The items of the owner's board but ATTN are those of an edited one (R8, R35, R53, R56). -/
theorem Moves.ownerBoard (h : Moves cause s i r t) (hrec : s.slots.get i = some r) :
    ∃ b, (s.boards.get r.owner).MovedBy cause s.profile.settle r (t.slots.get i) b
      ∧ (t.boards.get r.owner).notices = b.notices ∧ (t.boards.get r.owner).change = b.change
      ∧ (t.boards.get r.owner).overrun = b.overrun ∧ (t.boards.get r.owner).fault = b.fault
      ∧ (t.boards.get r.owner).flags = b.flags := by
  obtain ⟨⟨b, hb, heq | ⟨_, heq⟩⟩, _⟩ := h.boards hrec <;> rw [heq] <;> exact ⟨b, hb, rfl, rfl, rfl, rfl, rfl⟩

/-- A move leaves the session flags of every board (R112). -/
theorem Moves.flags (h : Moves cause s i r t) (hrec : s.slots.get i = some r) (m : HostId) :
    (t.boards.get m).flags = (s.boards.get m).flags := by
  by_cases hm : m = r.owner
  · subst hm
    obtain ⟨b, hb, _, _, _, _, hflags⟩ := h.ownerBoard hrec
    rw [hflags]
    generalize t.slots.get i = x at hb
    cases hb with
    | freed => exact (r.freedBoard_lines cause _).1
    | silent => rfl
    | posted => rfl
  · rw [(h.boards hrec).2 m hm]

/-- A move clears the line flags of a freed record's lines on its owner's board, and no other (R7, step 4). -/
theorem Moves.lineFlags (h : Moves cause s i r t) (hrec : s.slots.get i = some r) (m : HostId) (l : LineId) :
    has (t.boards.get m).change l = (has (s.boards.get m).change l
        && !decide (m = r.owner ∧ t.slots.get i = none ∧ r.names l = true))
      ∧ has (t.boards.get m).overrun l = (has (s.boards.get m).overrun l
        && !decide (m = r.owner ∧ t.slots.get i = none ∧ r.names l = true))
      ∧ has (t.boards.get m).fault l = (has (s.boards.get m).fault l
        && !decide (m = r.owner ∧ t.slots.get i = none ∧ r.names l = true)) := by
  by_cases hm : m = r.owner
  · subst hm
    obtain ⟨b, hb, _, hchange, hoverrun, hfault, _⟩ := h.ownerBoard hrec
    rw [hchange, hoverrun, hfault]
    generalize t.slots.get i = x at hb
    cases hb with
    | freed =>
      obtain ⟨_, hc, ho, hf⟩ := r.freedBoard_lines cause (s.boards.get r.owner)
      rw [hc, ho, hf]
      simp
    | silent => simp
    | posted => simp [Board.post]
  · rw [(h.boards hrec).2 m hm]
    simp [hm]

/-- A move leaves what is found under other tickets and on other boards. -/
theorem Moves.notice_ne (h : Moves cause s i r t) (hrec : s.slots.get i = some r) {m : HostId} {tk : Byte}
    (hne : m = r.owner → tk ≠ r.ticket) : t.noticeOf m tk = s.noticeOf m tk := by
  by_cases hm : m = r.owner
  · subst hm
    obtain ⟨b, hb, hnotices, _⟩ := h.ownerBoard hrec
    rw [State.noticeOf_eq, State.noticeOf_eq, hnotices]
    generalize t.slots.get i = x at hb
    cases hb with
    | freed => exact r.freedBoard_notice_ne cause _ (hne rfl)
    | silent => rfl
    | posted => exact noticeIn_postNotice_ne (hne rfl) _ _
  · rw [State.noticeOf_eq, State.noticeOf_eq, (h.boards hrec).2 m hm]

/-- What a move leaves under the record's ticket. -/
theorem Moves.notice_self (h : Moves cause s i r t) (hrec : s.slots.get i = some r) :
    t.noticeOf r.owner r.ticket =
      r.movedNotice cause s.profile.settle (t.slots.get i) (s.noticeOf r.owner r.ticket) := by
  obtain ⟨b, hb, hnotices, _⟩ := h.ownerBoard hrec
  rw [State.noticeOf_eq, State.noticeOf_eq, hnotices]
  generalize t.slots.get i = x at hb
  cases hb with
  | freed =>
    simp only [Record.movedNotice]
    split
    · rename_i hcause
      rcases hcause with rfl | rfl <;> rfl
    · rename_i hcause
      exact r.freedBoard_notice_self (not_or.mp hcause) _
  | silent r' hwaiting hsettle => simp [Record.movedNotice, hwaiting, hsettle]
  | posted r' k hk => rw [hk]; exact noticeIn_postNotice_self _ _ _

/-- A move reports nothing to the cells of lines the record does not name, nor where a WAITING record is freed (R73). -/
theorem Moves.cells_ne (h : Moves cause s i r t) (hrec : s.slots.get i = some r) {l : LineId}
    (hne : r.names l = false ∨ (r.state = .waiting ∧ t.slots.get i = none)) : t.cells.get l = s.cells.get l := by
  have hlive {x : Record} (hx : t.slots.get i = some x) : r.names l = false := by
    rcases hne with hl | ⟨_, hnone⟩
    · exact hl
    · rw [hx] at hnone; cases hnone
  cases h with
  | freed =>
    rw [State.free_cells hrec, if_neg]
    rcases hne with hl | ⟨hwaiting, _⟩
    · simp [hl]
    · simp [hwaiting]
  | granted hwaiting =>
    have hl := hlive (by rw [State.grant_slots, Table.get_set_self])
    have hsetting : r.settingOf l = none := by simpa [hl] using r.settingOf_isSome l
    unfold State.grant State.grantInto
    split
    · simpa [State.reportHeld, Record.asHeld, Record.settingOf] using by
        simp only [Record.settingOf] at hsetting
        simp [hsetting]
    · simp only [State.reportSettling_cells, Table.get_ofFn]
      rw [if_neg (by simpa [Record.asSettling, Record.names] using hl)]
      rfl
  | yielded =>
    have hl := hlive (x := r.asYielding s.now s.profile.yieldWindow) (by simp [State.enterYielding])
    simp [State.enterYielding, hl]
  | returned =>
    have hl := hlive (x := r.asHeld) (by simp [State.returnHeld])
    simp [State.returnHeld, hl]

end

end Sys2Proof.Machine
end

section
/-! SUPPORT. Runs of moves: what a freeing of several records and the evaluations after it amount to, each record moving at most once. -/

namespace Sys2Proof.Machine

/-- From `s` to `t`, the records of the slots of a list have moved, each once; the set of eligible preemptors may have been computed
anew in between. -/
inductive TableRun (cause : FreeCause) (s : State) : List SlotId → State → Prop
  | refl : TableRun cause s [] s
  /-- The set of eligible preemptors is computed (R50). -/
  | elects {l : List SlotId} {t : State} (h : TableRun cause s l t) (el : List SlotId) :
    TableRun cause s l { t with eligible := el }
  /-- A record that stood so far moves. -/
  | moves {l : List SlotId} {t u : State} {i : SlotId} {r : Record} (h : TableRun cause s l t) (hi : i ∉ l)
    (hrec : s.slots.get i = some r) (hmove : Moves cause t i r u) : TableRun cause s (i :: l) u

section

variable {cause : FreeCause} {s t : State} {l : List SlotId}

/-- A run changes the table alone. -/
theorem TableRun.tableOnly (h : TableRun cause s l t) : tableOnly s t := by
  induction h with
  | refl => exact .refl s
  | elects _ _ ih => exact ih.trans ⟨rfl, fun _ => ⟨rfl, rfl, rfl⟩⟩
  | moves _ _ _ hmove ih => exact ih.trans hmove.tableOnly

/-- What a run leaves in a slot: the record as it was, or moved. -/
theorem TableRun.slots (h : TableRun cause s l t) (j : SlotId) :
    (j ∉ l ∧ t.slots.get j = s.slots.get j)
      ∨ (j ∈ l ∧ ∃ r, s.slots.get j = some r ∧ r.Moved s.now s.profile.settle s.profile.yieldWindow (t.slots.get j)) := by
  induction h with
  | refl => exact .inl ⟨List.not_mem_nil, rfl⟩
  | elects _ _ ih => exact ih
  | @moves l t u i r h hi hrec hmove ih =>
    obtain ⟨hnow, _, _, _, _, _, hprofile, _⟩ := h.tableOnly.kept
    obtain ⟨hself, hne⟩ := hmove.slots
    rw [hnow, hprofile] at hself
    by_cases hj : j = i
    · subst hj
      exact .inr ⟨List.mem_cons_self, r, hrec, hself⟩
    · rw [hne j hj]
      simpa [hj] using ih

/-- A run leaves the slots it does not move as they were. -/
theorem TableRun.slots_ne (h : TableRun cause s l t) {j : SlotId} (hj : j ∉ l) : t.slots.get j = s.slots.get j := by
  rcases h.slots j with ⟨_, heq⟩ | ⟨hmem, _⟩
  · exact heq
  · exact absurd hmem hj

/-- A run moves the records of its slots. -/
theorem TableRun.moved (h : TableRun cause s l t) {j : SlotId} (hj : j ∈ l) :
    ∃ r, s.slots.get j = some r ∧ r.Moved s.now s.profile.settle s.profile.yieldWindow (t.slots.get j) := by
  rcases h.slots j with ⟨hmem, _⟩ | ⟨_, hmoved⟩
  · exact absurd hj hmem
  · exact hmoved

/-- A record that stands as it was has not moved. -/
theorem TableRun.not_mem_of_stands (h : TableRun cause s l t) {j : SlotId} {r : Record} (hs : s.slots.get j = some r)
    (ht : t.slots.get j = some r) : j ∉ l := by
  intro hj
  obtain ⟨w, hw, hmoved⟩ := h.moved hj
  obtain rfl := Option.some.inj (hs.symm.trans hw)
  rw [ht] at hmoved
  exact hmoved.ne

/-- Two runs on different slots are one. -/
theorem TableRun.trans {u : State} {m : List SlotId} (h : TableRun cause s l t) (h' : TableRun cause t m u)
    (hdisjoint : ∀ j ∈ m, j ∉ l) : TableRun cause s (m ++ l) u := by
  induction h' with
  | refl => exact h
  | elects _ el ih => exact (ih hdisjoint).elects el
  | @moves m t' u i r h' hi hrec hmove ih =>
    have hil : i ∉ l := hdisjoint i List.mem_cons_self
    refine (ih fun j hj => hdisjoint j (List.mem_cons_of_mem _ hj)).moves ?_ ?_ hmove
    · simp [hi, hil]
    · rw [← h.slots_ne hil]; exact hrec

/-- What is kept by every move of a record present is kept by a run. -/
theorem TableRun.keeps (h : TableRun cause s l t) {P : State → Prop} (hel : ∀ u el, P u → P { u with eligible := el })
    (hmove : ∀ u v i r, u.slots.get i = some r → Moves cause u i r v → P u → P v) (hs : P s) : P t := by
  induction h with
  | refl => exact hs
  | elects _ el ih => exact hel _ el ih
  | moves h hi hrec hm ih => exact hmove _ _ _ _ ((h.slots_ne hi).trans hrec) hm ih

/-! ## Records after a run -/

/-- A moved record left in the table was granted whole or passed between HELD and YIELDING. -/
theorem Record.Moved.remains {now settle window : Nat} {r r' : Record} (h : r.Moved now settle window (some r')) :
    (r.state = .waiting ∧ r' = r.granted now settle) ∨ (r.state = .held ∧ r' = r.inYielding now window)
      ∨ (r.state = .yielding ∧ r' = r.inHeld) := by
  cases h with
  | granted hwaiting => exact .inl ⟨hwaiting, rfl⟩
  | yielded hheld => exact .inr (.inl ⟨hheld, rfl⟩)
  | returned hyielding => exact .inr (.inr ⟨hyielding, rfl⟩)

/-- No run makes a record. -/
theorem TableRun.some_of_some (h : TableRun cause s l t) {j : SlotId} {r' : Record} (ht : t.slots.get j = some r') :
    ∃ r, s.slots.get j = some r
      ∧ (r' = r ∨ (j ∈ l ∧ r.Moved s.now s.profile.settle s.profile.yieldWindow (some r'))) := by
  rcases h.slots j with ⟨_, heq⟩ | ⟨hmem, r, hr, hmoved⟩
  · exact ⟨r', heq ▸ ht, .inl rfl⟩
  · exact ⟨r, hr, .inr ⟨hmem, ht ▸ hmoved⟩⟩

/-- Each record a run leaves is a record that was there, as it was, granted whole or passed (R2, R35). -/
theorem TableRun.recordsRemain (h : TableRun cause s l t) : recordsRemain s t := by
  obtain ⟨hnow, _, _, _, _, _, hprofile, _⟩ := h.tableOnly.kept
  intro j r' hr'
  obtain ⟨r, hr, rfl | ⟨_, hmoved⟩⟩ := h.some_of_some hr'
  · exact ⟨r', hr, .inl rfl⟩
  · refine ⟨r, hr, .inr ?_⟩
    rw [hnow, hprofile]
    rcases hmoved.remains with hcase | hcase
    · exact .inl hcase
    · rw [Record.passes, hnow, hprofile]
      exact .inr hcase

/-! ## Boards after a run -/

/-- A board none of whose host's records moved stands (R107). -/
theorem TableRun.board_ne (h : TableRun cause s l t) {m : HostId}
    (hm : ∀ i ∈ l, ∀ r, s.slots.get i = some r → r.owner ≠ m) : t.boards.get m = s.boards.get m := by
  induction h with
  | refl => rfl
  | elects _ _ ih => exact ih hm
  | moves h hi hrec hmove ih =>
    rw [(hmove.boards ((h.slots_ne hi).trans hrec)).2 m (Ne.symm (hm _ List.mem_cons_self _ hrec))]
    exact ih fun i hmem => hm i (List.mem_cons_of_mem _ hmem)

/-- A host whose records all stand has its board as it was (R48, R107). -/
theorem TableRun.board_of_stands (h : TableRun cause s l t) {m : HostId}
    (hm : ∀ j, ∀ r ∈ s.slots.get j, r.owner = m → t.slots.get j = some r) : t.boards.get m = s.boards.get m :=
  h.board_ne fun i hi r hr howner => h.not_mem_of_stands hr (hm i r hr howner) hi

/-- Other hosts' boards change by the passages of their records alone (R107). -/
theorem TableRun.otherBoardsFollow (h : TableRun cause s l t) (n : HostId) : otherBoardsFollow s t n :=
  fun _ _ hm => h.board_of_stands hm

/-- A run leaves the session flags (R112). -/
theorem TableRun.flags (h : TableRun cause s l t) (m : HostId) : (t.boards.get m).flags = (s.boards.get m).flags := by
  induction h with
  | refl => rfl
  | elects _ _ ih => exact ih
  | moves h hi hrec hmove ih => rw [hmove.flags ((h.slots_ne hi).trans hrec), ih]

/-- The line flags of a host are kept but for the lines of its freed records (R7, R111). -/
theorem TableRun.lineFlags (h : TableRun cause s l t) (m : HostId) {x : LineId}
    (hx : ∀ i ∈ l, ∀ r, s.slots.get i = some r → r.owner = m → r.names x = true → t.slots.get i ≠ none) :
    has (t.boards.get m).change x = has (s.boards.get m).change x
      ∧ has (t.boards.get m).overrun x = has (s.boards.get m).overrun x
      ∧ has (t.boards.get m).fault x = has (s.boards.get m).fault x := by
  induction h with
  | refl => exact ⟨rfl, rfl, rfl⟩
  | elects _ _ ih => exact ih hx
  | @moves l t u i r h hi hrec hmove ih =>
    obtain ⟨_, hne⟩ := hmove.slots
    obtain ⟨hc, ho, hf⟩ := ih fun j hj w hw howner hnames => by
      rw [← hne j fun heq => hi (heq ▸ hj)]
      exact hx j (List.mem_cons_of_mem _ hj) w hw howner hnames
    have hkept : ¬ (m = r.owner ∧ u.slots.get i = none ∧ r.names x = true) :=
      fun ⟨howner, hnone, hnames⟩ => hx i List.mem_cons_self r hrec howner.symm hnames hnone
    obtain ⟨hc', ho', hf'⟩ := hmove.lineFlags ((h.slots_ne hi).trans hrec) m x
    rw [hc', ho', hf', hc, ho, hf]
    simp [hkept]

/-- The line flags of a freed record's lines leave its owner's board (R7, step 4). -/
theorem TableRun.clearOf (h : TableRun cause s l t) {i : SlotId} {r : Record} (hi : i ∈ l) (hr : s.slots.get i = some r)
    (hnone : t.slots.get i = none) : (t.boards.get r.owner).clearOf r := by
  induction h with
  | refl => exact absurd hi List.not_mem_nil
  | elects _ _ ih => exact ih hi hnone
  | @moves l t u j w h hj hrec hmove ih =>
    intro x hx
    obtain ⟨hself, hne⟩ := hmove.slots
    obtain ⟨hc, ho, hf⟩ := hmove.lineFlags ((h.slots_ne hj).trans hrec) r.owner x
    rcases List.mem_cons.mp hi with rfl | hmem
    · obtain rfl := Option.some.inj (hrec.symm.trans hr)
      rw [hc, ho, hf]
      simp [hnone, hx]
    · obtain ⟨hc', ho', hf'⟩ := ih hmem (by rw [← hne i fun heq => hj (heq ▸ hmem)]; exact hnone) x hx
      rw [hc, ho, hf, hc', ho', hf']
      exact ⟨rfl, rfl, rfl⟩

/-- A ticket none of whose records moved keeps its notice (R107). -/
theorem TableRun.notice_ne (h : TableRun cause s l t) {m : HostId} {tk : Byte}
    (hne : ∀ i ∈ l, ∀ r, s.slots.get i = some r → r.owner = m → r.ticket ≠ tk) : t.noticeOf m tk = s.noticeOf m tk := by
  induction h with
  | refl => rfl
  | elects _ _ ih => exact ih hne
  | moves h hi hrec hmove ih =>
    rw [hmove.notice_ne ((h.slots_ne hi).trans hrec)
      fun howner heq => hne _ List.mem_cons_self _ hrec howner.symm heq.symm]
    exact ih fun i hmem => hne i (List.mem_cons_of_mem _ hmem)

/-- What a run leaves under the ticket of a record that moved, where no other record of the ticket moved. -/
theorem TableRun.notice_self (h : TableRun cause s l t) {i : SlotId} {r : Record} (hi : i ∈ l) (hr : s.slots.get i = some r)
    (halone : ∀ j ∈ l, ∀ w, s.slots.get j = some w → w.owner = r.owner → w.ticket = r.ticket → j = i) :
    t.noticeOf r.owner r.ticket =
      r.movedNotice cause s.profile.settle (t.slots.get i) (s.noticeOf r.owner r.ticket) := by
  induction h with
  | refl => exact absurd hi List.not_mem_nil
  | elects _ _ ih => exact ih hi halone
  | @moves l t u j w h hj hrec hmove ih =>
    obtain ⟨_, _, _, _, _, _, hprofile, _⟩ := h.tableOnly.kept
    have hpresent := (h.slots_ne hj).trans hrec
    rcases List.mem_cons.mp hi with rfl | hmem
    · obtain rfl := Option.some.inj (hrec.symm.trans hr)
      rw [hmove.notice_self hpresent, hprofile, h.notice_ne]
      intro j hmem v hv howner hticket
      exact hj (halone j (List.mem_cons_of_mem _ hmem) v hv howner hticket ▸ hmem)
    · have hji : j ≠ i := fun heq => hj (heq ▸ hmem)
      rw [hmove.notice_ne hpresent fun howner hticket =>
          hji (halone j List.mem_cons_self w hrec howner.symm hticket.symm),
        hmove.slots.2 i (Ne.symm hji)]
      exact ih hmem fun k hk => halone k (List.mem_cons_of_mem _ hk)

/-- A run keeps the entries of every board as `entriesStand` says (R107, R108). -/
theorem TableRun.entriesStand (h : TableRun cause s l t) (m : HostId) : entriesStand s t m := by
  refine ⟨fun x hx => h.lineFlags m fun i _ r hr howner hnames => hx i r hr howner hnames, fun tk htk => ?_⟩
  exact h.notice_ne fun i hi r hr howner hticket => h.not_mem_of_stands hr (htk i r hr howner hticket) hi

/-- A run keeps session flags and entries of every board (R107, R108, R112). -/
theorem TableRun.boardStands (h : TableRun cause s l t) (m : HostId) : boardStands s t m :=
  ⟨h.flags m, h.entriesStand m⟩

/-! ## Cells after a run -/

/-- The cell of a line no moved record names, freed WAITING records apart, stands (R73). -/
theorem TableRun.cell_ne (h : TableRun cause s l t) {x : LineId}
    (hx : ∀ i ∈ l, ∀ r, s.slots.get i = some r → r.names x = true → r.state = .waiting ∧ t.slots.get i = none) :
    t.cells.get x = s.cells.get x := by
  induction h with
  | refl => rfl
  | elects _ _ ih => exact ih hx
  | @moves l t u i r h hi hrec hmove ih =>
    obtain ⟨_, hne⟩ := hmove.slots
    rw [hmove.cells_ne ((h.slots_ne hi).trans hrec)]
    · refine ih fun j hj w hw hnames => ?_
      rw [← hne j fun heq => hi (heq ▸ hj)]
      exact hx j (List.mem_cons_of_mem _ hj) w hw hnames
    · cases hnames : r.names x with
      | false => exact .inl rfl
      | true => exact .inr (hx i List.mem_cons_self r hrec hnames)

/-- A live record is on no line a run grants, unless it was freed before: a grant finds its lines without a holder (R31). -/
theorem TableRun.granted_idle (h : TableRun cause s l t) {i : SlotId} {r : Record} (hi : i ∈ l) (hr : s.slots.get i = some r)
    (hwaiting : r.state = .waiting) (hsome : t.slots.get i ≠ none) {x : LineId} (hx : r.names x = true) {k : SlotId}
    {w : Record} (hw : s.slots.get k = some w) (hlive : w.state ≠ .waiting) (hnames : w.names x = true) :
    k ∈ l ∧ t.slots.get k = none := by
  induction h with
  | refl => exact absurd hi List.not_mem_nil
  | elects _ _ ih => exact ih hi hsome
  | @moves l t u j v h hj hrec hmove ih =>
    obtain ⟨hself, hne⟩ := hmove.slots
    have hfreed : k ∈ l ∧ t.slots.get k = none := by
      rcases List.mem_cons.mp hi with rfl | hmem
      · obtain rfl := Option.some.inj (hrec.symm.trans hr)
        have hidle : ¬ t.lineHeld x := by
          generalize hv : u.slots.get i = y at *
          cases hmove with
          | freed => exact absurd (by rw [State.free_slots, if_pos rfl] at hv; exact hv.symm) hsome
          | granted _ hidle => exact hidle x hx
          | yielded hheld => rw [hheld] at hwaiting; cases hwaiting
          | returned hyielding => rw [hyielding] at hwaiting; cases hwaiting
        rcases h.slots k with ⟨_, heq⟩ | ⟨hmem, w', hw', hmoved⟩
        · exact absurd ⟨k, w, heq.trans hw, hlive, hnames⟩ hidle
        · obtain rfl := Option.some.inj (hw'.symm.trans hw)
          refine ⟨hmem, ?_⟩
          cases hk : t.slots.get k with
          | none => rfl
          | some w'' =>
            rw [hk] at hmoved
            obtain ⟨_, _, _, _, hlines, _⟩ := hmoved.keeps
            refine absurd ⟨k, w'', hk, hmoved.live, ?_⟩ hidle
            rw [Record.names, hlines]
            exact hnames
      · refine ih hmem ?_
        rw [← hne i fun heq => hj (heq ▸ hmem)]
        exact hsome
    obtain ⟨hmem, hnone⟩ := hfreed
    refine ⟨List.mem_cons_of_mem _ hmem, ?_⟩
    rw [hne k fun heq => hj (heq ▸ hmem)]
    exact hnone

/-- The cell of a line that stands had no report (R73). -/
theorem TableRun.cellsStand (h : TableRun cause s l t) : cellsStand s t := by
  intro x hstands
  refine h.cell_ne fun i hi r hr hnames => ?_
  by_cases hwaiting : r.state = .waiting
  · refine ⟨hwaiting, ?_⟩
    by_contra hsome
    rcases hstands with ⟨k, w, hw, hlive, hwnames, hkept, _⟩ | ⟨_, hidle⟩
    · have hfreed := (h.granted_idle hi hr hwaiting hsome hnames hw hlive hwnames).2
      rw [hkept] at hfreed
      cases hfreed
    · obtain ⟨r', hr'⟩ := Option.ne_none_iff_exists'.mp hsome
      obtain ⟨w, hw, hmoved⟩ := h.moved hi
      obtain rfl := Option.some.inj (hr.symm.trans hw)
      rw [hr'] at hmoved
      obtain ⟨_, _, _, _, hlines, _⟩ := hmoved.keeps
      refine hidle ⟨i, r', hr', hmoved.live, ?_⟩
      rw [Record.names, hlines]
      exact hnames
  · rcases hstands with ⟨k, w, hw, hlive, hwnames, hkept, halone⟩ | ⟨hidle, _⟩
    · have hne : i ≠ k := fun heq => h.not_mem_of_stands hw hkept (heq ▸ hi)
      rw [halone i r hr hne hwaiting] at hnames
      cases hnames
    · exact absurd ⟨i, r, hr, hwaiting, hnames⟩ hidle

end

end Sys2Proof.Machine
end

section
/-! SUPPORT. The cells of the records a run moves: told of a grant, at rest after a freeing, passed between HELD and YIELDING. -/

namespace Sys2Proof.Machine

/-! ## The setting of an entry -/

/-- A record that names each line once has each entry's setting on its line (R3). -/
theorem Record.settingOf_of_mem {r : Record} (hlines : (r.lines.map fun e => e.line).Nodup) {e : LineEntry} (he : e ∈ r.lines) :
    r.settingOf e.line = some e.setting := by
  obtain ⟨st, hst⟩ := Option.isSome_iff_exists.mp ((r.settingOf_isSome e.line).trans
    ((r.names_iff e.line).mpr ⟨e, he, rfl⟩))
  have heq := List.inj_on_of_nodup_map hlines (Record.entry_of_settingOf hst) he rfl
  rw [hst, ← heq]

/-! ## Grants -/

/-- The cells of `s` know the record `r` granted into slot `i` at `moment` with settle time `settle` (R35, R43, R44). -/
def State.knowsGrant (s : State) (i : SlotId) (r : Record) (moment settle : Nat) : Prop :=
  ∀ e ∈ r.lines,
    if settle = 0 then
      s.applies e.line { slot := i, owner := r.owner, ticket := r.ticket, state := .held } e.setting moment
    else
      (s.cells.get e.line).holder = some { slot := i, owner := r.owner, ticket := r.ticket, state := .settling }
        ∧ (s.cells.get e.line).presented = (s.profile.lines.get e.line).rest.pin

/-- The cells go on knowing a grant while the cells of the record's lines and the profile stand. -/
theorem State.knowsGrant.kept {s t : State} {i : SlotId} {r : Record} {moment settle : Nat} (h : s.knowsGrant i r moment settle)
    (hcells : ∀ l, r.names l = true → t.cells.get l = s.cells.get l) (hprofile : t.profile = s.profile) :
    t.knowsGrant i r moment settle := by
  intro e he
  have hcell := hcells e.line ((r.names_iff e.line).mpr ⟨e, he, rfl⟩)
  unfold State.applies
  rw [hcell, hprofile]
  exact h e he

/-- The cell of an entry's line after a grant where the settle time is 0 (R44, R73). -/
theorem State.grantInto_cell_held {s : State} (i : SlotId) {r : Record} (hsettle : s.profile.settle = 0)
    (hlines : (r.lines.map fun e => e.line).Nodup) {e : LineEntry} (he : e ∈ r.lines) :
    (s.grantInto i r).cells.get e.line =
      ((s.cells.get e.line).hold (r.asHeld.holder i) e.setting s.now).present (s.restOf e.line) := by
  have hset : r.asHeld.settingOf e.line = some e.setting := Record.settingOf_of_mem (r := r) hlines he
  simp only [State.grantInto, if_pos hsettle, State.reportHeld, State.mapCells, Table.get_ofFn, hset]
  rfl

/-- The cell of a line after a grant with a settle time (R43, R73). -/
theorem State.grantInto_cell_settling {s : State} (i : SlotId) {r : Record} (hsettle : s.profile.settle ≠ 0) {l : LineId}
    (hnames : r.names l = true) :
    (s.grantInto i r).cells.get l =
      ((s.cells.get l).settle ((r.asSettling s.now s.profile.settle).holder i)).present (s.restOf l) := by
  have hset : (r.asSettling s.now s.profile.settle).names l = true := hnames
  rw [State.grantInto, if_neg hsettle, State.reportSettling_cells, Table.get_ofFn, if_pos hset]
  rfl

/-- The cell of a line the granted record does not name stands (R73). -/
theorem State.grantInto_cell_ne (s : State) (i : SlotId) {r : Record} {l : LineId} (hnames : r.names l = false) :
    (s.grantInto i r).cells.get l = s.cells.get l := by
  unfold State.grantInto
  split
  · have hset : r.asHeld.settingOf l = none := by
      have := r.asHeld.settingOf_isSome l
      rw [show r.asHeld.names l = false from hnames] at this
      simpa using this
    simp only [State.reportHeld, State.mapCells, Table.get_ofFn, hset]
    rfl
  · have hset : (r.asSettling s.now s.profile.settle).names l = false := hnames
    rw [State.reportSettling_cells, Table.get_ofFn, hset]
    rfl

/-- A grant tells the cells of the record's lines (R35, R43, R44). -/
theorem State.knowsGrant_grantInto (s : State) (i : SlotId) {r : Record} (hlines : (r.lines.map fun e => e.line).Nodup) :
    (s.grantInto i r).knowsGrant i r s.now s.profile.settle := by
  obtain ⟨_, _, _, _, _, _, hprofile, _⟩ := (tableOnly.grantInto s i r).kept
  intro e he
  split
  · rename_i hsettle
    unfold State.applies
    rw [State.grantInto_cell_held i hsettle hlines he]
    simp [Cell.hold, Cell.blank, Cell.present, Cell.shown, Cell.claimed, Record.holder, Record.asHeld, Config.blankingTime]
  · rename_i hsettle
    rw [State.grantInto_cell_settling i hsettle ((r.names_iff e.line).mpr ⟨e, he, rfl⟩), hprofile]
    simp [Cell.settle, Cell.present, Cell.shown, Cell.claimed, Record.holder, Record.asSettling, State.restOf]

/-- A grant of a walk has the cells of a grant (R35). -/
@[simp] theorem State.grant_cells (s : State) (i : SlotId) (r : Record) : (s.grant i r).cells = (s.grantInto i r).cells := by
  unfold State.grant
  split
  · exact State.post_cells _ _ _ _
  · rfl

/-- A grant of a walk tells the cells of the record's lines (R35). -/
theorem State.knowsGrant_grant (s : State) (i : SlotId) {r : Record} (hlines : (r.lines.map fun e => e.line).Nodup) :
    (s.grant i r).knowsGrant i r s.now s.profile.settle := by
  refine (s.knowsGrant_grantInto i hlines).kept (fun l _ => by rw [State.grant_cells]) ?_
  obtain ⟨_, _, _, _, _, _, h, _⟩ := (tableOnly.grant s i r).kept
  obtain ⟨_, _, _, _, _, _, h', _⟩ := (tableOnly.grantInto s i r).kept
  rw [h, h']

/-! ## Cells at rest -/

/-- A cell released and told its line's rest state is at rest (R70, R73). -/
theorem State.atRest_of_release {s t : State} {l : LineId} (hcell : t.cells.get l = (s.cells.get l).release.present (s.restOf l))
    (hprofile : t.profile = s.profile) : t.atRest l := by
  unfold State.atRest
  rw [hcell, hprofile]
  simp [Cell.release, Cell.present, Cell.shown, Cell.claimed, State.restOf]

/-- A cell at rest told of a passage stays at rest: it has no holder (R70, R73). -/
theorem State.atRest_of_pass {s t : State} {l : LineId} {st : RecState} (h : s.atRest l)
    (hcell : t.cells.get l = ((s.cells.get l).pass st).present (s.restOf l)) (hprofile : t.profile = s.profile) :
    t.atRest l := by
  obtain ⟨hholder, happlied, hparked, hblanking, _⟩ := h
  unfold State.atRest
  rw [hcell, hprofile]
  simp [Cell.pass, Cell.present, Cell.shown, Cell.claimed, State.restOf, hholder, happlied, hparked, hblanking]

/-- A cell as it was is at rest as it was. -/
theorem State.atRest.kept {s t : State} {l : LineId} (h : s.atRest l) (hcell : t.cells.get l = s.cells.get l)
    (hprofile : t.profile = s.profile) : t.atRest l := by
  unfold State.atRest
  rw [hcell, hprofile]
  exact h

section

variable {cause : FreeCause} {s t : State} {l : List SlotId}

/-- What a passage tells a cell of its record (R73). -/
theorem Moves.cell_passed {i : SlotId} {r r' : Record} (h : Moves cause s i r t) (hlive : r.state ≠ .waiting)
    (hsome : t.slots.get i = some r') {x : LineId} (hx : r.names x = true) :
    t.cells.get x = ((s.cells.get x).pass r'.state).present (s.restOf x) := by
  cases h with
  | freed => rw [State.free_slots, if_pos rfl] at hsome; cases hsome
  | granted hwaiting => exact absurd hwaiting hlive
  | yielded =>
    have hr' : r' = r.asYielding s.now s.profile.yieldWindow := by simpa [State.enterYielding] using hsome.symm
    subst hr'
    simp [State.enterYielding, hx, State.restOf, Record.asYielding]
  | returned =>
    have hr' : r' = r.asHeld := by simpa [State.returnHeld] using hsome.symm
    subst hr'
    simp [State.returnHeld, hx, State.restOf, Record.asHeld]

/-- A move that grants no record on a line leaves its cell at rest. -/
theorem Moves.atRest {i : SlotId} {r : Record} (h : Moves cause s i r t) (hrec : s.slots.get i = some r) {x : LineId}
    (hrest : s.atRest x) (hgrant : r.state = .waiting → r.names x = true → t.slots.get i = none) : t.atRest x := by
  obtain ⟨_, _, _, _, _, _, hprofile, _⟩ := h.tableOnly.kept
  cases hnames : r.names x with
  | false => exact hrest.kept (h.cells_ne hrec (.inl hnames)) hprofile
  | true =>
    cases hslot : t.slots.get i with
    | none =>
      by_cases hwaiting : r.state = .waiting
      · exact hrest.kept (h.cells_ne hrec (.inr ⟨hwaiting, hslot⟩)) hprofile
      · cases h with
        | freed =>
          refine State.atRest_of_release ?_ hprofile
          rw [State.free_cells hrec, if_pos ⟨hwaiting, hnames⟩]
        | granted hw => exact absurd hw hwaiting
        | yielded => simp [State.enterYielding] at hslot
        | returned => simp [State.returnHeld] at hslot
    | some r' =>
      have hlive : r.state ≠ .waiting := fun hw => by rw [hgrant hw hnames] at hslot; cases hslot
      exact State.atRest_of_pass hrest (h.cell_passed hlive hslot hnames) hprofile

/-- A granted record's cells know it at the end of the run: no later move is on its lines (R35). -/
theorem TableRun.knowsGrant (h : TableRun cause s l t) {i : SlotId} {r : Record} (hi : i ∈ l) (hr : s.slots.get i = some r)
    (hwaiting : r.state = .waiting) (hsome : t.slots.get i ≠ none) (hlines : (r.lines.map fun e => e.line).Nodup) :
    t.knowsGrant i r s.now s.profile.settle := by
  induction h with
  | refl => exact absurd hi List.not_mem_nil
  | elects _ _ ih => exact ih hi hsome
  | @moves l t u j v h hj hrec hmove ih =>
    obtain ⟨_, hne⟩ := hmove.slots
    obtain ⟨hnow, _, _, _, _, _, hprofile, _⟩ := h.tableOnly.kept
    obtain ⟨_, _, _, _, _, _, hprofile', _⟩ := hmove.tableOnly.kept
    have hpresent := (h.slots_ne hj).trans hrec
    rcases List.mem_cons.mp hi with rfl | hmem
    · obtain rfl := Option.some.inj (hrec.symm.trans hr)
      cases hmove with
      | freed => exact absurd (by rw [State.free_slots, if_pos rfl]) hsome
      | granted => rw [← hnow, ← hprofile]; exact t.knowsGrant_grant i hlines
      | yielded hheld => rw [hheld] at hwaiting; cases hwaiting
      | returned hyielding => rw [hyielding] at hwaiting; cases hwaiting
    · have hij : i ≠ j := fun heq => hj (heq ▸ hmem)
      rw [hne i hij] at hsome
      refine (ih hmem hsome).kept (fun x hx => hmove.cells_ne hpresent ?_) hprofile'
      cases hnames : v.names x with
      | false => exact .inl rfl
      | true =>
        right
        have hvwaiting : v.state = .waiting := by
          by_contra hlive
          exact hj (h.granted_idle hmem hr hwaiting hsome hx hrec hlive hnames).1
        refine ⟨hvwaiting, ?_⟩
        cases hmove with
        | freed => rw [State.free_slots, if_pos rfl]
        | granted _ hidle =>
          obtain ⟨r', hr'⟩ := Option.ne_none_iff_exists'.mp hsome
          obtain ⟨w, hw, hmoved⟩ := h.moved hmem
          obtain rfl := Option.some.inj (hr.symm.trans hw)
          rw [hr'] at hmoved
          obtain ⟨_, _, _, _, hl, _⟩ := hmoved.keeps
          refine absurd ⟨i, r', hr', hmoved.live, ?_⟩ (hidle x hnames)
          rw [Record.names, hl]
          exact hx
        | yielded hheld => rw [hheld] at hvwaiting; cases hvwaiting
        | returned hyielding => rw [hyielding] at hvwaiting; cases hvwaiting

/-- The lines of a freed holder are at rest at the end of the run where no record was granted them (R7, R73). -/
theorem TableRun.atRest (h : TableRun cause s l t) {i : SlotId} {r : Record} (hi : i ∈ l) (hr : s.slots.get i = some r)
    (hlive : r.state ≠ .waiting) (hnone : t.slots.get i = none) {x : LineId} (hx : r.names x = true)
    (hgrant : ∀ j ∈ l, ∀ w, s.slots.get j = some w → w.state = .waiting → w.names x = true → t.slots.get j = none) :
    t.atRest x := by
  induction h with
  | refl => exact absurd hi List.not_mem_nil
  | elects _ _ ih => exact ih hi hnone hgrant
  | @moves l t u j v h hj hrec hmove ih =>
    obtain ⟨_, hne⟩ := hmove.slots
    obtain ⟨_, _, _, _, _, _, hprofile, _⟩ := hmove.tableOnly.kept
    have hpresent := (h.slots_ne hj).trans hrec
    rcases List.mem_cons.mp hi with rfl | hmem
    · obtain rfl := Option.some.inj (hrec.symm.trans hr)
      cases hmove with
      | freed =>
        refine State.atRest_of_release ?_ hprofile
        rw [State.free_cells hpresent, if_pos ⟨hlive, hx⟩]
      | granted hwaiting => exact absurd hwaiting hlive
      | yielded => simp [State.enterYielding] at hnone
      | returned => simp [State.returnHeld] at hnone
    · refine hmove.atRest hpresent (ih hmem ?_ fun k hk w hw hwaiting hnames => ?_)
        (hgrant j List.mem_cons_self v hrec)
      · rw [← hne i fun heq => hj (heq ▸ hmem)]; exact hnone
      · rw [← hne k fun heq => hj (heq ▸ hk)]
        exact hgrant k (List.mem_cons_of_mem _ hk) w hw hwaiting hnames

/-- The cell of a record that passed, alone on its line, was told of that passage alone (R73). -/
theorem TableRun.cell_passed (h : TableRun cause s l t) {i : SlotId} {r r' : Record} (hi : i ∈ l) (hr : s.slots.get i = some r)
    (hlive : r.state ≠ .waiting) (hsome : t.slots.get i = some r') {x : LineId} (hx : r.names x = true)
    (halone : ∀ j, ∀ w ∈ s.slots.get j, j ≠ i → w.state ≠ .waiting → w.names x = false) :
    t.cells.get x = ((s.cells.get x).pass r'.state).present (s.restOf x) := by
  have hgranted {m : List SlotId} {u : State} (hrun : TableRun cause s m u) {j : SlotId} {v : Record} (hj : j ∈ m)
      (hv : s.slots.get j = some v) (hwaiting : v.state = .waiting) (hnames : v.names x = true)
      (hfree : i ∈ m → u.slots.get i ≠ none) : u.slots.get j = none := by
    by_contra hne
    obtain ⟨hmem, hnone⟩ := hrun.granted_idle hj hv hwaiting hne hnames hr hlive hx
    exact hfree hmem hnone
  induction h with
  | refl => exact absurd hi List.not_mem_nil
  | elects _ _ ih => exact ih hi hsome
  | @moves l t u j v h hj hrec hmove ih =>
    obtain ⟨_, hne⟩ := hmove.slots
    obtain ⟨_, _, _, _, _, _, hprofile, _⟩ := h.tableOnly.kept
    have hpresent := (h.slots_ne hj).trans hrec
    have hrun : TableRun cause s (j :: l) u := h.moves hj hrec hmove
    rcases List.mem_cons.mp hi with rfl | hmem
    · obtain rfl := Option.some.inj (hrec.symm.trans hr)
      rw [hmove.cell_passed hlive hsome hx, State.restOf, hprofile, h.cell_ne, State.restOf]
      intro k hk w hw hnames
      have hwaiting : w.state = .waiting := by
        by_contra hwlive
        rw [halone k w hw (fun heq => hj (heq ▸ hk)) hwlive] at hnames
        cases hnames
      exact ⟨hwaiting, hgranted h hk hw hwaiting hnames fun hmem => absurd hmem hj⟩
    · have hij : i ≠ j := fun heq => hj (heq ▸ hmem)
      rw [hmove.cells_ne hpresent]
      · exact ih hmem (by rw [← hne i hij]; exact hsome)
      · cases hnames : v.names x with
        | false => exact .inl rfl
        | true =>
          have hwaiting : v.state = .waiting := by
            by_contra hvlive
            rw [halone j v hrec (Ne.symm hij) hvlive] at hnames
            cases hnames
          exact .inr ⟨hwaiting, hgranted hrun List.mem_cons_self hrec hwaiting hnames fun _ => by rw [hsome]; simp⟩

end

end Sys2Proof.Machine
end

section
/-! SUPPORT. The evaluations as runs: what the walk grants outranks every preemptor on its lines, so no record moves twice; and what
eligibility evaluation leaves in each slot. -/

namespace Sys2Proof.Machine

/-! ## Heads of queues -/

/-- The head of a line's queue is a WAITING record that names it, and none in the queue stands before it (R29). -/
theorem State.first_of_headOf {s : State} {i : SlotId} {l : LineId} (h : headOf s.slots l = some i) :
    ∃ r ∈ s.slots.get i, r.state = .waiting ∧ r.names l = true
      ∧ ∀ j, ∀ w ∈ s.slots.get j, w.state = .waiting → w.names l = true → ¬ w.before r := by
  have hordered : (queueOf s.slots l).Pairwise fun x y => ¬ y.2.before x.2 := (waitingOrder_ordered s.slots).filter _
  have hmem {j : SlotId} {w : Record} : (j, w) ∈ queueOf s.slots l ↔ (w ∈ s.slots.get j ∧ w.state = .waiting) ∧ w.names l = true := by
    rw [queueOf, List.mem_filter, mem_waitingOrder]
  unfold headOf at h
  cases hq : queueOf s.slots l with
  | nil => rw [hq] at h; cases h
  | cons x xs =>
    obtain ⟨k, r⟩ := x
    rw [hq] at h hordered
    obtain rfl : k = i := by simpa using h
    obtain ⟨⟨hr, hwaiting⟩, hl⟩ := hmem.mp (hq ▸ List.mem_cons_self (a := (k, r)))
    refine ⟨r, hr, hwaiting, hl, fun j w hw hwwaiting hwl => ?_⟩
    have hjw := hmem.mpr ⟨⟨hw, hwwaiting⟩, hwl⟩
    rw [hq] at hjw
    rcases List.mem_cons.mp hjw with heq | htail
    · cases heq
      simp [Record.before]
    · exact (List.pairwise_cons.mp hordered).1 _ htail

/-- The walk's test passes only records whose lines have no holder, and that head each of their queues (R31). -/
theorem grantable_spec {t : Slots} {i : SlotId} {r : Record} (h : grantable t i r = true) {l : LineId} (hl : r.names l = true) :
    holderOf t l = none ∧ headOf t l = some i := by
  obtain ⟨e, he, rfl⟩ := (r.names_iff l).mp hl
  rw [grantable, List.all_eq_true] at h
  simpa using h e he

/-! ## Eligible preemptors -/

/-- The set computed is that of the records that pass the test of R50. -/
theorem mem_eligibleSet (t : Slots) (i : SlotId) : i ∈ eligibleSet t ↔ ∃ r, t.get i = some r ∧ isEligible t i r = true := by
  unfold eligibleSet
  rw [List.mem_filter]
  cases t.get i <;> simp

/-- What the test of R50 asks, line by line. -/
theorem isEligible_iff (s : State) (i : SlotId) (r : Record) :
    isEligible s.slots i r = true ↔ r.state = .waiting ∧ r.preempt = true ∧ ∀ l, r.names l = true →
      headOf s.slots l = some i
        ∧ ∀ j, ∀ h ∈ s.slots.get j, h.state ≠ .waiting → h.names l = true → h.priority < r.priority := by
  have hline (l : LineId) : ((recordsOf s.slots).all fun x => !(x.2.live && x.2.names l) || decide (x.2.priority < r.priority))
      = true ↔ ∀ j, ∀ h ∈ s.slots.get j, h.state ≠ .waiting → h.names l = true → h.priority < r.priority := by
    rw [List.all_eq_true]
    constructor
    · intro hall j h hh hlive hl
      simpa [(Record.live_iff h).mpr hlive, hl] using hall (j, h) ((mem_recordsOf _ _ _).mpr hh)
    · rintro hall ⟨j, h⟩ hh
      cases hlive : h.live with
      | false => rfl
      | true =>
        cases hl : h.names l with
        | false => rfl
        | true => simpa using hall j h ((mem_recordsOf _ _ _).mp hh) ((Record.live_iff h).mp hlive) hl
  have hentries : (r.lines.all fun e => headOf s.slots e.line == some i
      && (recordsOf s.slots).all fun x => !(x.2.live && x.2.names e.line) || decide (x.2.priority < r.priority)) = true
      ↔ ∀ l, r.names l = true → headOf s.slots l = some i
        ∧ ∀ j, ∀ h ∈ s.slots.get j, h.state ≠ .waiting → h.names l = true → h.priority < r.priority := by
    rw [List.all_eq_true]
    constructor
    · intro hall l hl
      obtain ⟨e, he, rfl⟩ := (r.names_iff l).mp hl
      have h := hall e he
      rw [Bool.and_eq_true, hline] at h
      exact ⟨by simpa using h.1, h.2⟩
    · intro hall e he
      rw [Bool.and_eq_true, hline]
      simpa using hall e.line ((r.names_iff _).mpr ⟨e, he, rfl⟩)
  rw [isEligible, Bool.and_eq_true, Bool.and_eq_true, hentries, and_assoc, beq_iff_eq]

/-- A record outranks the WAITING records that share a line with it. -/
def State.outranks (s : State) (r : Record) : Prop :=
  ∀ j, ∀ w ∈ s.slots.get j, w.state = .waiting → ∀ l, w.names l = true → r.names l = true → w.priority ≤ r.priority

/-- A record is demanded exactly where the set names a record that shares a line with it (R51). -/
theorem demanded_iff (t : Slots) (el : List SlotId) (r : Record) :
    demanded t el r = true ↔ ∃ j ∈ el, ∃ w, t.get j = some w ∧ ∃ l, r.names l = true ∧ w.names l = true := by
  unfold demanded
  rw [List.any_eq_true]
  constructor
  · rintro ⟨j, hj, h⟩
    cases hw : t.get j with
    | none => simp [hw] at h
    | some w =>
      rw [hw] at h
      obtain ⟨e, he, hwe⟩ := List.any_eq_true.mp h
      exact ⟨j, hj, w, hw, e.line, (r.names_iff _).mpr ⟨e, he, rfl⟩, hwe⟩
  · rintro ⟨j, hj, w, hw, l, hr, hwl⟩
    obtain ⟨e, he, rfl⟩ := (r.names_iff l).mp hr
    refine ⟨j, hj, ?_⟩
    rw [hw]
    exact List.any_eq_true.mpr ⟨e, he, hwl⟩

/-- No eligible preemptor stands against a live record that outranks the WAITING records of its lines (R50). -/
theorem State.not_demanded_of_outranks {s : State} {i : SlotId} {r : Record} (hr : s.slots.get i = some r)
    (hlive : r.state ≠ .waiting) (h : s.outranks r) : demanded s.slots (eligibleSet s.slots) r = false := by
  rw [← Bool.not_eq_true, demanded_iff]
  rintro ⟨j, hj, w, hw, l, hrl, hwl⟩
  obtain ⟨w', hw', heligible⟩ := (mem_eligibleSet _ _).mp hj
  obtain rfl := Option.some.inj (hw.symm.trans hw')
  obtain ⟨hwaiting, _, hlines⟩ := (isEligible_iff s j w).mp heligible
  have hlt := (hlines l hwl).2 i r hr hlive hrl
  have hle := h j w hw hwaiting l hwl hrl
  exact absurd (lt_of_lt_of_le hlt hle) (lt_irrefl _)

/-! ## The walk -/

/-- A record the walk has moved: live-holding since its grant, and ranked above the WAITING records of its lines. -/
def State.freshlyGranted (s : State) (r : Record) : Prop :=
  (r.state = .settling ∨ r.state = .held) ∧ s.outranks r

/-- A granted record is in SETTLING or HELD (R35). -/
theorem Record.granted_state (r : Record) (now settle : Nat) :
    (r.granted now settle).state = if settle = 0 then .held else .settling := by
  unfold Record.granted Record.inHeld
  split <;> rfl

/-- Fewer WAITING records leave a record as high. -/
theorem State.outranks.of_waiting {s t : State} {r : Record} (h : s.outranks r)
    (hw : ∀ j, ∀ w ∈ t.slots.get j, w.state = .waiting → w ∈ s.slots.get j) : t.outranks r :=
  fun j w hwj hwaiting => h j w (hw j w hwj hwaiting) hwaiting

/-- A WAITING record after a step of the walk was there before it. -/
theorem State.waiting_of_tryGrant {s : State} {i j : SlotId} {w : Record} (h : w ∈ (s.tryGrant i).slots.get j)
    (hwaiting : w.state = .waiting) : w ∈ s.slots.get j := by
  rcases s.tryGrant_cases i with heq | ⟨r, hr, _, _, heq⟩ <;> rw [heq] at h
  · exact h
  · rw [State.grant_slots, Table.get_set] at h
    split at h
    · cases h
      exact absurd hwaiting (r.granted_live _ _)
    · exact h

/-- Steps of the walk continue a run in which each moved record was freed or granted by the walk. -/
theorem State.foldl_tryGrant_run {cause : FreeCause} {s : State} (w : List SlotId) {m : List SlotId} {t : State}
    (h : TableRun cause s m t) (hm : ∀ j ∈ m, ∀ r, t.slots.get j = some r → t.freshlyGranted r) :
    ∃ m', TableRun cause s m' (w.foldl State.tryGrant t)
      ∧ ∀ j ∈ m', ∀ r, (w.foldl State.tryGrant t).slots.get j = some r → (w.foldl State.tryGrant t).freshlyGranted r := by
  induction w generalizing m t with
  | nil => exact ⟨m, h, hm⟩
  | cons i w ih =>
    have hkept {j : SlotId} {r : Record} (hj : j ∈ m) (hr : (t.tryGrant i).slots.get j = some r)
        (hsame : (t.tryGrant i).slots.get j = t.slots.get j) : (t.tryGrant i).freshlyGranted r := by
      obtain ⟨hstate, hrank⟩ := hm j hj r (hsame ▸ hr)
      exact ⟨hstate, hrank.of_waiting fun k v hv hwaiting => State.waiting_of_tryGrant hv hwaiting⟩
    rw [List.foldl_cons]
    rcases t.tryGrant_cases i with heq | ⟨r, hr, hwaiting, hgrantable, heq⟩
    · rw [heq]; exact ih h hm
    · have hi : i ∉ m := fun hmem => by
        rcases (hm i hmem r hr).1 with hstate | hstate <;> rw [hstate] at hwaiting <;> cases hwaiting
      have hidle (l : LineId) (hl : r.names l = true) : ¬ t.lineHeld l := by
        rw [← State.holderOf_isSome, (grantable_spec hgrantable hl).1]
        simp
      refine ih (m := i :: m) (heq ▸ h.moves hi ((h.slots_ne hi).symm.trans hr) (.granted hwaiting hidle)) fun j hj v hv => ?_
      rcases List.mem_cons.mp hj with rfl | hmem
      · rw [heq, State.grant_slots, Table.get_set_self] at hv
        obtain rfl := Option.some.inj hv
        refine ⟨?_, fun k x hx hxwaiting l hxl hrl => ?_⟩
        · rw [Record.granted_state]
          split
          · exact .inr rfl
          · exact .inl rfl
        · rw [Record.granted_names] at hrl
          obtain ⟨r', hr', _, _, hfirst⟩ := State.first_of_headOf (grantable_spec hgrantable hrl).2
          obtain rfl := Option.some.inj (hr.symm.trans hr')
          have hbefore := hfirst k x (State.waiting_of_tryGrant hx hxwaiting) hxwaiting hxl
          obtain ⟨_, _, hpriority, _⟩ := (Record.Moved.granted (now := t.now) (settle := t.profile.settle)
            (window := 0) hwaiting).keeps
          rw [hpriority]
          exact not_lt.mp fun hlt => hbefore (.inl hlt)
      · refine hkept hmem hv ?_
        rw [heq, State.grant_slots, Table.get_set_ne _ _ fun he : j = i => hi (he ▸ hmem)]

/-! ## Eligibility evaluation -/

/-- What the test of R51 leaves of a record. -/
def Record.answers (r : Record) (faced : Bool) (now window : Nat) : Record :=
  if r.state = .held ∧ faced = true then r.inYielding now window
  else if r.state = .yielding ∧ faced = false then r.inHeld
  else r

/-- The test leaves the record's lines (R51). -/
theorem Record.answers_lines (r : Record) (faced : Bool) (now window : Nat) : (r.answers faced now window).lines = r.lines := by
  unfold Record.answers
  split
  · rfl
  · split <;> rfl

/-- A record tested once passes no second time under the same demand (R52). -/
theorem Record.answers_answers (r : Record) (faced : Bool) (now window : Nat) :
    (r.answers faced now window).answers faced now window = r.answers faced now window := by
  cases faced <;> cases hs : r.state <;> simp [Record.answers, Record.inYielding, Record.inHeld, hs]

/-- The test leaves SETTLING and WAITING records as they are (R51). -/
theorem Record.answers_of_not_presenting {r : Record} (h : r.state = .waiting ∨ r.state = .settling) (faced : Bool)
    (now window : Nat) : r.answers faced now window = r := by
  rcases h with h | h <;> simp [Record.answers, h]

/-- The test leaves a HELD record none stands against (R51). -/
theorem Record.answers_of_held {r : Record} (h : r.state = .settling ∨ r.state = .held) (now window : Nat) :
    r.answers false now window = r := by
  rcases h with h | h <;> simp [Record.answers, h]

/-- The slot of the record tested (R51). -/
theorem State.applyDemand_slots (s : State) (i j : SlotId) :
    (s.applyDemand i).slots.get j =
      if j = i then (s.slots.get j).map fun r => r.answers (demanded s.slots s.eligible r) s.now s.profile.yieldWindow
      else s.slots.get j := by
  by_cases hj : j = i
  · subst hj
    rw [if_pos rfl]
    unfold State.applyDemand
    split
    · rename_i r hr
      rw [hr, Option.map_some, Record.answers]
      split
      · simp only [State.enterYielding, State.post_slots, State.reportPass_slots, State.putRecord_slots, Table.get_set_self]
        rfl
      · split
        · simp only [State.returnHeld, State.post_slots, State.reportPass_slots, State.putRecord_slots, Table.get_set_self]
          rfl
        · exact hr
    · rename_i hr
      rw [hr]
      rfl
  · rw [if_neg hj]
    rcases s.applyDemand_cases i with h | ⟨r, _, ⟨_, _, h⟩ | ⟨_, _, h⟩⟩ <;> rw [h]
    · simp [State.enterYielding, Table.get_set_ne _ _ hj]
    · simp [State.returnHeld, Table.get_set_ne _ _ hj]

/-- Where each slot's record names the same lines, the same records are demanded (R51). -/
theorem demanded_of_lines {t u : Slots} (h : ∀ j, (u.get j).map Record.lines = (t.get j).map Record.lines) (el : List SlotId)
    {r r' : Record} (hr : r'.lines = r.lines) : demanded u el r' = demanded t el r := by
  have hnames {w w' : Record} (hw : w'.lines = w.lines) (l : LineId) : w'.names l = w.names l := by
    rw [Record.names, Record.names, hw]
  have himp {t u : Slots} (h : ∀ j, (u.get j).map Record.lines = (t.get j).map Record.lines) {r r' : Record}
      (hr : r'.lines = r.lines) (hd : demanded u el r' = true) : demanded t el r = true := by
    rw [demanded_iff] at hd ⊢
    obtain ⟨j, hj, w', hw', l, hrl, hwl⟩ := hd
    have hline := h j
    rw [hw', Option.map_some] at hline
    obtain ⟨w, hw, hlines⟩ := Option.map_eq_some_iff.mp hline.symm
    exact ⟨j, hj, w, hw, l, (hnames hr l) ▸ hrl, (hnames hlines l).trans hwl⟩
  exact Bool.eq_iff_iff.mpr ⟨himp h hr, himp (fun j => (h j).symm) hr.symm⟩

/-- The test leaves the set of eligible preemptors (R52). -/
@[simp] theorem State.applyDemand_eligible (s : State) (i : SlotId) : (s.applyDemand i).eligible = s.eligible := by
  rcases s.applyDemand_cases i with h | ⟨r, _, ⟨_, _, h⟩ | ⟨_, _, h⟩⟩ <;> rw [h] <;> rfl

/-- A test changes no demand (R52). -/
theorem State.demanded_applyDemand (s : State) (i : SlotId) {r r' : Record} (hr : r'.lines = r.lines) :
    demanded (s.applyDemand i).slots s.eligible r' = demanded s.slots s.eligible r := by
  refine demanded_of_lines (fun j => ?_) _ hr
  rw [State.applyDemand_slots]
  split
  · cases s.slots.get j with
    | none => rfl
    | some w => simp [Record.answers_lines]
  · rfl

/-- Tests of a list of slots, all against the set as it stood: each slot of the list has its record tested once (R52). -/
theorem State.foldl_applyDemand_slots (w : List SlotId) (s : State) (j : SlotId) :
    (w.foldl State.applyDemand s).slots.get j =
      if j ∈ w then (s.slots.get j).map fun r => r.answers (demanded s.slots s.eligible r) s.now s.profile.yieldWindow
      else s.slots.get j := by
  induction w generalizing s with
  | nil => simp
  | cons i w ih =>
    obtain ⟨hnow, _, _, _, _, _, hprofile, _⟩ := (tableOnly.applyDemand s i).kept
    rw [List.foldl_cons, ih, State.applyDemand_slots, hnow, hprofile, State.applyDemand_eligible]
    by_cases hji : j = i
    · subst hji
      rw [if_pos rfl, if_pos List.mem_cons_self]
      split
      · rw [Option.map_map]
        refine congrArg (fun f => (s.slots.get j).map f) (funext fun r => ?_)
        rw [Function.comp, State.demanded_applyDemand s j (r.answers_lines _ _ _), Record.answers_answers]
      · rfl
    · rw [if_neg hji]
      simp only [List.mem_cons, hji, false_or]
      split
      · refine congrArg (fun f => (s.slots.get j).map f) (funext fun r => ?_)
        rw [State.demanded_applyDemand s i rfl]
      · rfl

/-- The pass goes over the live-holding records (R52). -/
theorem mem_holdersInEntryOrder (t : Slots) (i : SlotId) :
    i ∈ holdersInEntryOrder t ↔ ∃ r, t.get i = some r ∧ r.state ≠ .waiting := by
  simp [holdersInEntryOrder, List.mem_filter]

/-- What eligibility evaluation leaves in each slot (R51, R52). -/
theorem State.eligibility_slots (s : State) (j : SlotId) :
    s.eligibility.slots.get j =
      (s.slots.get j).map fun r => r.answers (demanded s.slots (eligibleSet s.slots) r) s.now s.profile.yieldWindow := by
  unfold State.eligibility
  rw [State.foldl_applyDemand_slots]
  split
  · rfl
  · rename_i hno
    cases hr : s.slots.get j with
    | none => rfl
    | some r =>
      have hwaiting : r.state = .waiting := by
        by_contra hlive
        exact hno ((mem_holdersInEntryOrder _ _).mpr ⟨r, hr, hlive⟩)
      rw [Option.map_some, Record.answers_of_not_presenting (.inl hwaiting)]

/-- The set kept after eligibility evaluation (R50). -/
@[simp] theorem State.eligibility_eligible (s : State) : s.eligibility.eligible = eligibleSet s.slots :=
  foldl_kept State.eligible State.applyDemand State.applyDemand_eligible _ _

/-- Tests continue a run in which no record moved answers the demand any more. -/
theorem State.foldl_applyDemand_run {cause : FreeCause} {s : State} (w : List SlotId) {m : List SlotId} {t : State}
    (h : TableRun cause s m t)
    (hm : ∀ j ∈ m, ∀ r, t.slots.get j = some r →
      r.answers (demanded t.slots t.eligible r) t.now t.profile.yieldWindow = r) :
    ∃ m', TableRun cause s m' (w.foldl State.applyDemand t) := by
  induction w generalizing m t with
  | nil => exact ⟨m, h⟩
  | cons i w ih =>
    have hnext (hrun : ∃ m', (∀ j ∈ m', j ∈ m ∨ j = i) ∧ TableRun cause s m' (t.applyDemand i)) :
        ∃ m', TableRun cause s m' (w.foldl State.applyDemand (t.applyDemand i)) := by
      obtain ⟨m', hmem, hrun⟩ := hrun
      obtain ⟨hnow, _, _, _, _, _, hprofile, _⟩ := (tableOnly.applyDemand t i).kept
      refine ih hrun fun j hj r hr => ?_
      rw [State.applyDemand_slots] at hr
      rw [hnow, hprofile, State.applyDemand_eligible]
      split at hr
      · obtain ⟨r0, hr0, rfl⟩ := Option.map_eq_some_iff.mp hr
        rw [State.demanded_applyDemand t i (r0.answers_lines _ _ _), Record.answers_answers]
      · rename_i hji
        rw [State.demanded_applyDemand t i rfl]
        exact hm j ((hmem j hj).resolve_right hji) r hr
    rw [List.foldl_cons]
    rcases t.applyDemand_cases i with heq | ⟨r, hr, hcase⟩
    · exact hnext ⟨m, fun j hj => .inl hj, heq.symm ▸ h⟩
    · have hi : i ∉ m := fun hmem => by
        have hfix := congrArg Record.state (hm i hmem r hr)
        rcases hcase with ⟨hstate, hd, _⟩ | ⟨hstate, hd, _⟩ <;>
          simp [Record.answers, hstate, hd, Record.inYielding, Record.inHeld] at hfix
      have hrec := (h.slots_ne hi).symm.trans hr
      refine hnext ⟨i :: m, fun j hj => (List.mem_cons.mp hj).symm, ?_⟩
      rcases hcase with ⟨hstate, _, heq⟩ | ⟨hstate, _, heq⟩ <;> rw [heq]
      · exact h.moves hi hrec (.yielded hstate)
      · exact h.moves hi hrec (.returned hstate)

/-- Eligibility evaluation continues a run whose moved records were freed or freshly granted (R37, R52). -/
theorem State.eligibility_run {cause : FreeCause} {s t : State} {m : List SlotId} (h : TableRun cause s m t)
    (hm : ∀ j ∈ m, ∀ r, t.slots.get j = some r → t.freshlyGranted r) : ∃ m', TableRun cause s m' t.eligibility := by
  refine State.foldl_applyDemand_run _ (h.elects (eligibleSet t.slots)) fun j hj r hr => ?_
  obtain ⟨hstate, hrank⟩ := hm j hj r hr
  have hlive : r.state ≠ .waiting := by rcases hstate with hs | hs <;> simp [hs]
  rw [show demanded _ _ r = false from State.not_demanded_of_outranks hr hlive hrank]
  exact Record.answers_of_held hstate _ _

/-- Both evaluations continue a run in which every record moved was freed (R7, R37). -/
theorem State.evaluate_run {cause : FreeCause} {s t : State} {m : List SlotId} (h : TableRun cause s m t)
    (hm : ∀ j ∈ m, t.slots.get j = none) : ∃ m', TableRun cause s m' t.evaluate := by
  obtain ⟨m', hwalk, hgranted⟩ := State.foldl_tryGrant_run ((waitingOrder t.slots).map fun x => x.1) h
    fun j hj r hr => by rw [hm j hj] at hr; cases hr
  exact State.eligibility_run hwalk hgranted

/-! ## Slots after an evaluation -/

/-- The evaluations free no record and make none (R34, R51). -/
theorem State.evaluate_isNone (s : State) (j : SlotId) : s.evaluate.slots.get j = none ↔ s.slots.get j = none := by
  have hwalk (w : List SlotId) (t : State) :
      (w.foldl State.tryGrant t).slots.get j = none ↔ t.slots.get j = none := by
    induction w generalizing t with
    | nil => rfl
    | cons i w ih =>
      rw [List.foldl_cons, ih]
      rcases t.tryGrant_cases i with heq | ⟨r, hr, _, _, heq⟩ <;> rw [heq]
      rw [State.grant_slots, Table.get_set]
      split
      · rename_i hj; subst hj; simp [hr]
      · rfl
  rw [State.evaluate, State.eligibility_slots, Option.map_eq_none_iff]
  exact hwalk _ s

/-! ## Freeings -/

/-- A list of freeings is a run whose moved records are all gone (R7). -/
theorem State.freeEach_run {cause : FreeCause} (w : List SlotId) {s t : State} {m : List SlotId} (h : TableRun cause s m t)
    (hm : ∀ j ∈ m, t.slots.get j = none) :
    ∃ m', TableRun cause s m' (t.freeEach w cause) ∧ ∀ j ∈ m', (t.freeEach w cause).slots.get j = none := by
  induction w generalizing m t with
  | nil => exact ⟨m, h, hm⟩
  | cons i w ih =>
    have hcons : t.freeEach (i :: w) cause = (t.free i cause).freeEach w cause := rfl
    rw [hcons]
    cases hr : t.slots.get i with
    | none =>
      have hsame : t.free i cause = t := by rw [State.free, hr]
      rw [hsame]
      exact ih h hm
    | some r =>
      have hi : i ∉ m := fun hmem => by rw [hm i hmem] at hr; cases hr
      refine ih (h.moves hi ((h.slots_ne hi).symm.trans hr) .freed) fun j hj => ?_
      rw [State.free_slots]
      split
      · rfl
      · rename_i hji
        exact hm j ((List.mem_cons.mp hj).resolve_left hji)

/-- A freeing of several records and the evaluations after it are a run, and the slots freed are empty after it, with no other (R7). -/
theorem State.freeAll_run (s : State) (w : List SlotId) (cause : FreeCause) :
    (∃ m, TableRun cause s m (s.freeAll w cause))
      ∧ ∀ j, (s.freeAll w cause).slots.get j = none ↔ j ∈ w ∨ s.slots.get j = none := by
  obtain ⟨m, hrun, hnone⟩ := State.freeEach_run (cause := cause) w (TableRun.refl (s := s)) fun j hj => absurd hj List.not_mem_nil
  refine ⟨State.evaluate_run hrun hnone, fun j => ?_⟩
  rw [State.freeAll, State.evaluate_isNone, State.freeEach_slots]
  split <;> simp_all

/-- Eligibility evaluation alone is a run. -/
theorem State.eligibility_run_self (cause : FreeCause) (s : State) : ∃ m, TableRun cause s m s.eligibility :=
  State.eligibility_run .refl fun _ hj => absurd hj List.not_mem_nil

/-- Both evaluations are a run. -/
theorem State.evaluate_run_self (cause : FreeCause) (s : State) : ∃ m, TableRun cause s m s.evaluate :=
  State.evaluate_run .refl fun _ hj => absurd hj List.not_mem_nil

end Sys2Proof.Machine
end

section
/-! SUPPORT. The checks of a CLAIM in the terms of the statements: each check of R15, and what an arrival must find to be granted. -/

namespace Sys2Proof.Machine

/-! ## Lowest members and counts -/

/-- The first number found is the lowest that passes. -/
theorem find_finRange_eq_some {n : Nat} (p : Fin n → Bool) (i : Fin n) :
    (List.finRange n).find? p = some i ↔ p i = true ∧ ∀ j, j < i → p j = false := by
  rw [List.find?_eq_some_iff_getElem]
  constructor
  · rintro ⟨hp, k, hk, hik, hlt⟩
    have hki : k = i.val := by simpa using congrArg Fin.val hik
    refine ⟨hp, fun j hj => ?_⟩
    simpa using hlt j.val (by rw [hki]; exact hj)
  · rintro ⟨hp, hlt⟩
    refine ⟨hp, i.val, by simp, by simp, fun j hj => ?_⟩
    simpa using hlt ⟨j, hj.trans i.isLt⟩ hj

/-- None is found where none passes. -/
theorem find_finRange_eq_none {n : Nat} (p : Fin n → Bool) : (List.finRange n).find? p = none ↔ ∀ i, p i = false := by
  simp [List.find?_eq_none]

/-- The records of the table are counted slot by slot. -/
theorem countP_recordsOf (t : Slots) (p : SlotId × Record → Bool) :
    (recordsOf t).countP p = (List.finRange 32).countP fun i => match t.get i with | some r => p (i, r) | none => false := by
  rw [recordsOf, List.countP_filterMap]
  refine congrArg (fun f => List.countP f _) (funext fun i => ?_)
  cases t.get i <;> simp

/-- A host's records, counted (R10). -/
theorem State.recordCount_eq (s : State) (n : HostId) : recordCount s.slots n = s.countOf n := by
  rw [recordCount, countP_recordsOf]
  rfl

/-- A host has no record found under a ticket it does not own (R11). -/
theorem State.findTicket_isNone (s : State) (n : HostId) (tk : Byte) :
    (findTicket s.slots n tk).isNone
      = !(List.finRange 32).any fun i => match s.slots.get i with | some r => r.owner == n && r.ticket == tk | none => false := by
  rw [Bool.eq_iff_iff, Option.isNone_iff_eq_none, findTicket, List.find?_eq_none, Bool.not_eq_true', List.any_eq_false]
  constructor
  · intro h i _
    cases hr : s.slots.get i with
    | none => simp
    | some r => exact h (i, r) ((mem_recordsOf _ _ _).mpr hr)
  · rintro h ⟨i, r⟩ hr
    have := h i (List.mem_finRange i)
    rwa [Option.mem_def.mp ((mem_recordsOf _ _ _).mp hr)] at this

/-- A host's orphan notices, counted (R11). -/
theorem State.orphanCount_eq (s : State) (n : HostId) : orphanCount s.slots n (s.boards.get n) = s.orphansOf n :=
  congrArg (fun f => List.countP f (s.boards.get n).notices) (funext fun x => s.findTicket_isNone n x.1)

/-! ## Checks 2 to 7 -/

/-- The lowest line a claim may not name (R17). -/
theorem forbiddenLine_eq_some (s : State) (n : HostId) (a : ClaimArgs) (l : LineId) :
    forbiddenLine s n a.entries = some l ↔ s.forbids n a l ∧ ∀ m, m < l → ¬ s.forbids n a m := by
  have hforbids (m : LineId) : (a.entries.any (fun e => e.line == m) && !has (s.profile.lines.get m).mask n) = true
      ↔ s.forbids n a m := by
    simp [State.forbids, ClaimArgs.names]
  simp only [forbiddenLine, find_finRange_eq_some, hforbids, ← Bool.not_eq_true]

/-- No line of a claim forbids it (R17). -/
theorem forbiddenLine_eq_none (s : State) (n : HostId) (a : ClaimArgs) :
    forbiddenLine s n a.entries = none ↔ ∀ l, ¬ s.forbids n a l := by
  simp [forbiddenLine, State.forbids, ClaimArgs.names]

/-- The test of a group finds the bonded groups a claim splits (R18). -/
theorem splits_iff (s : State) (a : ClaimArgs) (g : GroupId) :
    (has s.profile.bonded g && namesSome a.entries g && !namesAll a.entries g) = true ↔ s.splits a g := by
  have hgroup (l : LineId) : groupOf l = g ↔ l.val / 4 = g.val := Fin.ext_iff
  have hsome : namesSome a.entries g = true ↔ ∃ l : LineId, l.val / 4 = g.val ∧ a.names l := by
    rw [namesSome, List.any_eq_true]
    constructor
    · rintro ⟨e, he, h⟩
      exact ⟨e.line, (hgroup _).mp (by simpa using h), e, he, rfl⟩
    · rintro ⟨l, hl, e, he, rfl⟩
      exact ⟨e, he, by simpa using (hgroup _).mpr hl⟩
  have hall : namesAll a.entries g = true ↔ ∀ l : LineId, l.val / 4 = g.val → a.names l := by
    rw [namesAll, List.all_eq_true]
    constructor
    · intro h l hl
      have := h l (List.mem_finRange l)
      simpa [(hgroup l).mpr hl, ClaimArgs.names] using this
    · intro h l _
      by_cases hl : groupOf l = g
      · obtain ⟨e, he, heq⟩ := h l ((hgroup l).mp hl)
        simp only [hl, bne_self_eq_false, Bool.false_or, List.any_eq_true]
        exact ⟨e, he, by simpa using heq⟩
      · simp [hl]
  rw [Bool.and_eq_true, Bool.and_eq_true, Bool.not_eq_true', ← Bool.not_eq_true, hsome, hall, and_assoc]
  simp only [not_forall, State.splits, exists_prop]

/-- The lowest bonded group a claim splits (R18). -/
theorem splitGroup_eq_some (s : State) (a : ClaimArgs) (g : GroupId) :
    splitGroup s a.entries = some g ↔ s.splits a g ∧ ∀ m, m < g → ¬ s.splits a m := by
  simp only [splitGroup, find_finRange_eq_some, splits_iff, ← Bool.not_eq_true]

/-- A claim splits no bonded group (R18). -/
theorem splitGroup_eq_none (s : State) (a : ClaimArgs) : splitGroup s a.entries = none ↔ ∀ g, ¬ s.splits a g := by
  simp only [splitGroup, find_finRange_eq_none, splits_iff, ← Bool.not_eq_true]

/-- A ticket is in use for a host (R19). -/
theorem ticketInUse_iff (s : State) (n : HostId) (tk : Byte) : ticketInUse s n tk = true ↔ s.ticketTaken n tk := by
  have hrecord : (findTicket s.slots n tk).isSome = true ↔ ¬ s.ownsNone n tk := by
    rw [Option.isSome_iff_ne_none, ne_eq, findTicket_none]
  have hnotice : ((s.boards.get n).notices.any fun x => x.1 == tk) = true ↔ (s.noticeOf n tk).isSome = true := by
    simp [State.noticeOf]
  rw [ticketInUse, Bool.or_eq_true, hrecord, hnotice]

/-- The lowest FREE slot (R1). -/
theorem freeSlot_eq_some (s : State) (i : SlotId) : freeSlot s.slots = some i ↔ s.lowestFree i := by
  simp [freeSlot, find_finRange_eq_some, State.lowestFree, Option.isSome_iff_ne_none]

/-- A claim passes checks 2 to 7 of R15. -/
theorem claimRefusal_eq_none (s : State) (n : HostId) (a : ClaimArgs) : claimRefusal s n a = none ↔ s.passes n a := by
  have hforbids := forbiddenLine_eq_none s n a
  have hsplits := splitGroup_eq_none s a
  have hfree : (freeSlot s.slots).isNone = false ↔ ∃ i, s.slots.get i = none := by
    rw [← Bool.not_eq_true, Option.isNone_iff_eq_none, freeSlot_none]
    simp
  unfold claimRefusal
  rw [State.recordCount_eq, State.orphanCount_eq]
  split
  · rename_i l hl
    exact iff_of_false (by simp) fun h => by rw [hforbids.mpr h.1] at hl; cases hl
  · rename_i hl
    split
    · rename_i g hg
      exact iff_of_false (by simp) fun h => by rw [hsplits.mpr h.2.1] at hg; cases hg
    · rename_i hg
      have htaken := ticketInUse_iff s n a.ticket
      refine Iff.trans ?_ (and_iff_right (hforbids.mp hl)).symm
      refine Iff.trans ?_ (and_iff_right (hsplits.mp hg)).symm
      rw [← htaken, ← hfree]
      split
      · simp [*]
      · split
        · simp only [*]; simp; omega
        · split
          · simp only [*]; simp; omega
          · split
            · simp [*]
            · simp only [*]; simp; omega

/-! ## What an arrival must find -/

/-- An arriving claim is grantable (R32). -/
theorem arrivalGrantable_iff (s : State) (n : HostId) (a : ClaimArgs) :
    arrivalGrantable s.slots (s.profile.hosts.get n).priority a.entries = true ↔ s.grantsArrival n a := by
  have hheld (l : LineId) : (holderOf s.slots l).isNone = true ↔ ¬ s.lineHeld l := by
    rw [← State.holderOf_isSome]
    cases holderOf s.slots l <;> simp
  have hqueue (l : LineId) :
      ((waitingOrder s.slots).all fun x => !(decide ((s.profile.hosts.get n).priority ≤ x.2.priority) && x.2.names l)) = true
        ↔ ∀ j, ∀ w ∈ s.slots.get j, w.state = .waiting → w.names l = true → w.priority < (s.profile.hosts.get n).priority := by
    rw [List.all_eq_true]
    constructor
    · intro h j w hw hwaiting hl
      simpa [hl] using h (j, w) ((mem_waitingOrder _ _ _).mpr ⟨hw, hwaiting⟩)
    · rintro h ⟨j, w⟩ hmem
      obtain ⟨hw, hwaiting⟩ := (mem_waitingOrder _ _ _).mp hmem
      cases hl : w.names l with
      | false => simp
      | true => simpa using h j w hw hwaiting hl
  rw [arrivalGrantable, List.all_eq_true]
  simp only [Bool.and_eq_true, hheld, hqueue]
  exact ⟨fun h l ⟨e, he, hl⟩ => hl ▸ h e he, fun h e he => h e.line ⟨e, he, rfl⟩⟩

end Sys2Proof.Machine
end

section
/-! SUPPORT. What sessions, boards and the vote undergo beside the table: the vote's operations leave the table, the cells and all
entries of the boards but session flags; and the operations that end sessions are chains of elementary changes. -/

namespace Sys2Proof.Machine

/-! ## The vote's operations -/

/-- From `s` to `t` the vote, the vote flags, the session flags (with ATTN) and the profile state alone may change. -/
def voteSide (s t : State) : Prop :=
  t = { s with
        sessions := t.sessions, boards := t.boards, vote := t.vote, profile := { s.profile with state := t.profile.state } }
    ∧ (∀ h, t.sessions.get h = { s.sessions.get h with voted := (t.sessions.get h).voted })
    ∧ ∀ h, t.boards.get h = { s.boards.get h with flags := (t.boards.get h).flags, attn := (t.boards.get h).attn }

/-- Nothing changes. -/
theorem voteSide.refl (s : State) : voteSide s s := ⟨rfl, fun _ => rfl, fun _ => rfl⟩

/-- One change of the vote's follows another. -/
theorem voteSide.trans {s t u : State} (h1 : voteSide s t) (h2 : voteSide t u) : voteSide s u := by
  obtain ⟨e1, c1, b1⟩ := h1
  obtain ⟨e2, c2, b2⟩ := h2
  exact ⟨by rw [e2, e1], fun h => by rw [c2, c1], fun h => by rw [b2, b1]⟩

/-- A vote put in place. -/
theorem voteSide.vote (s : State) (v : Vote) : voteSide s { s with vote := v } := ⟨rfl, fun _ => rfl, fun _ => rfl⟩

/-- A vote flag set or cleared (R133). -/
theorem voteSide.setVoted (s : State) (n : HostId) (v : Bool) : voteSide s (s.setVoted n v) := by
  refine ⟨rfl, fun h => ?_, fun _ => rfl⟩
  rw [State.setVoted_sessions, Table.get_set]
  split
  · rename_i hn; subst hn; rfl
  · rfl

/-- The end of a vote (R133). -/
theorem voteSide.endVote (s : State) : voteSide s s.endVote := ⟨rfl, fun h => by simp, fun _ => rfl⟩

/-- A session flag set (R112). -/
theorem voteSide.flag (s : State) (n : HostId) (f : SessionFlags → SessionFlags) : voteSide s (s.flag n f) := by
  refine ⟨rfl, fun _ => rfl, fun h => ?_⟩
  rw [State.flag, State.editBoard_boards, Table.get_set]
  split
  · rename_i hn; subst hn; rfl
  · rfl

/-- A change of the vote's made for each host of a set. -/
theorem voteSide.forHosts (s : State) (w : HostSet) (f : State → HostId → State) (h : ∀ t n, voteSide t (f t n)) :
    voteSide s (s.forHosts w f) :=
  State.forHosts_induct (voteSide s) s w f (.refl s) fun t n _ ht => ht.trans (h t n)

/-- The completion test (R135). -/
theorem voteSide.completionTest (s : State) : voteSide s s.completionTest := by
  rcases s.completionTest_cases with ⟨_, _, h⟩ | ⟨_, _, _, h⟩ | ⟨_, h⟩ <;> rw [h]
  · exact .endVote s
  · refine (voteSide.endVote s).trans (.trans (t := { s.endVote with profile := { s.profile with state := .opened } }) ?_ ?_)
    · exact ⟨rfl, fun _ => rfl, fun _ => rfl⟩
    · exact .forHosts _ _ _ fun t n => .flag t n _
  · exact .refl s

/-- A host joins (R97, R135). -/
theorem voteSide.hostJoined (s : State) (n : HostId) : voteSide s (s.hostJoined n) := by
  unfold State.hostJoined
  split
  · exact ((voteSide.vote s _).trans (.flag _ n _)).trans (.completionTest _)
  · exact .refl s

/-- A host leaves (R97, R135). -/
theorem voteSide.hostLeft (s : State) (n : HostId) : voteSide s (s.hostLeft n) := by
  unfold State.hostLeft
  split
  · exact (voteSide.vote s _).trans (.completionTest _)
  · exact .refl s

/-- A host restarts (R97, R135). -/
theorem voteSide.hostRestarted (s : State) (n : HostId) : voteSide s (s.hostRestarted n) := by
  unfold State.hostRestarted
  split
  · exact ((voteSide.vote s _).trans (.flag _ n _)).trans (.completionTest _)
  · exact .refl s

/-- A REOPEN VOTE counted (R134). -/
theorem voteSide.reopenVote (s : State) (n : HostId) : voteSide s (s.reopenVote n) := by
  unfold State.reopenVote
  split
  · split
    · exact .refl s
    · exact ((voteSide.vote s _).trans (.setVoted _ n true)).trans (.completionTest _)
  · exact (((voteSide.vote s _).trans (.setVoted _ n true)).trans (.forHosts _ _ _ fun t m => .flag t m _)).trans
      (.completionTest _)

/-- The end of a failed vote (R136). -/
theorem voteSide.failVote (s : State) (w : HostSet) :
    voteSide s (s.endVote.forHosts w fun t h => t.flag h fun f => { f with voteFailed := true }) :=
  (voteSide.endVote s).trans (.forHosts _ _ _ fun t n => .flag t n _)

/-- What a state keeps through the vote's operations. -/
theorem voteSide.kept {s t : State} (h : voteSide s t) :
    t.now = s.now ∧ t.resetn = s.resetn ∧ t.slots = s.slots ∧ t.eligible = s.eligible ∧ t.cells = s.cells
      ∧ t.profile = { s.profile with state := t.profile.state } := by
  rw [h.1]
  exact ⟨rfl, rfl, rfl, rfl, rfl, rfl⟩

/-- What a session keeps through the vote's operations. -/
theorem voteSide.session {s t : State} (h : voteSide s t) (n : HostId) :
    (t.sessions.get n).state = (s.sessions.get n).state ∧ (t.sessions.get n).epoch = (s.sessions.get n).epoch
      ∧ (t.sessions.get n).period = (s.sessions.get n).period ∧ (t.sessions.get n).deadline = (s.sessions.get n).deadline := by
  rw [h.2.1 n]
  exact ⟨rfl, rfl, rfl, rfl⟩

/-- What a board keeps through the vote's operations. -/
theorem voteSide.board {s t : State} (h : voteSide s t) (n : HostId) :
    (t.boards.get n).notices = (s.boards.get n).notices ∧ (t.boards.get n).change = (s.boards.get n).change
      ∧ (t.boards.get n).overrun = (s.boards.get n).overrun ∧ (t.boards.get n).fault = (s.boards.get n).fault := by
  rw [h.2.2 n]
  exact ⟨rfl, rfl, rfl, rfl⟩

/-! ## Chains of elementary changes -/

/-- The elementary changes of the part outside CLAIM, settle ends, line requests and sampling. -/
inductive Change (s : State) : State → Prop
  /-- One of the vote's operations. -/
  | votes {t : State} (h : voteSide s t) : Change s t
  /-- A session context put in place. -/
  | session (n : HostId) (c : Session) : Change s (s.putSession n c)
  /-- A board cleared whole (R113). -/
  | clears (n : HostId) : Change s (s.clearBoard n)
  /-- A profile put in place. -/
  | profile (p : Profile) : Change s { s with profile := p }
  /-- The set of eligible preemptors computed (R50). -/
  | elects (el : List SlotId) : Change s { s with eligible := el }
  /-- A record moves. -/
  | moves {cause : FreeCause} {i : SlotId} {r : Record} {t : State} (hrec : s.slots.get i = some r)
    (h : Moves cause s i r t) : Change s t

/-- A chain of elementary changes. -/
abbrev Changes : State → State → Prop := Relation.ReflTransGen Change

/-- A run is a chain of elementary changes. -/
theorem TableRun.changes {cause : FreeCause} {s t : State} {l : List SlotId} (h : TableRun cause s l t) : Changes s t := by
  induction h with
  | refl => exact .refl
  | elects _ el ih => exact ih.tail (.elects el)
  | moves h hi hrec hmove ih => exact ih.tail (.moves ((h.slots_ne hi).trans hrec) hmove)

/-- A freeing of several records with its evaluations. -/
theorem Changes.freeAll (s : State) (w : List SlotId) (cause : FreeCause) : Changes s (s.freeAll w cause) :=
  have ⟨⟨_, h⟩, _⟩ := s.freeAll_run w cause
  h.changes

/-- A change made for each host of a set. -/
theorem Changes.forHosts (s : State) (w : HostSet) (f : State → HostId → State) (h : ∀ t n, Changes t (f t n)) :
    Changes s (s.forHosts w f) :=
  State.forHosts_induct (Changes s) s w f .refl fun t n _ ht => ht.trans (h t n)

/-- ATTACH from DETACHED or LAPSED (R95). -/
theorem Changes.beginSession (s : State) (n : HostId) (p : Nat) : Changes s (s.beginSession n p) := by
  have hcleared : Changes s (s.clearBoard n) := .single (.clears n)
  exact (hcleared.tail (.session n _)).tail (.votes (.hostJoined _ n))

/-- ATTACH while ATTACHED (R96). -/
theorem Changes.restartSession (s : State) (n : HostId) (p : Nat) : Changes s (s.restartSession n p) := by
  have hcleared : Changes s ((s.freeHost n).clearBoard n) := (Changes.freeAll s _ _).tail (.clears n)
  exact ((hcleared.tail (.votes (.setVoted _ n false))).tail (.session n _)).tail (.votes (.hostRestarted _ n))

/-- The session ends, its records are freed and its board is cleared (R99, R100). -/
theorem Changes.endSession (s : State) (n : HostId) (c : Session) :
    Changes s (((s.putSession n c).freeHost n).clearBoard n) :=
  .tail (.trans (.single (.session n c)) (Changes.freeAll _ _ _)) (.clears n)

/-- DETACH from ATTACHED (R100). -/
theorem Changes.detachAttached (s : State) (n : HostId) : Changes s (s.detachAttached n) :=
  .tail (Changes.endSession s n _) (.votes (.hostLeft _ n))

/-- DETACH from LAPSED (R100). -/
theorem Changes.detachLapsed (s : State) (n : HostId) : Changes s (s.detachLapsed n) :=
  .tail (.single (.session n _)) (.clears n)

/-- A lapse (R99). -/
theorem Changes.lapse (s : State) (n : HostId) : Changes s (s.lapse n) :=
  .tail (.tail (Changes.endSession s n _) (.votes (.flag _ n _))) (.votes (.hostLeft _ n))

/-- CLEAR ALL (R137). -/
theorem Changes.clearAll (s : State) (n : HostId) : Changes s (s.clearAll n) := by
  have hended : Changes s s.endVote := .single (.votes (.endVote s))
  have hlapsed := hended.trans
    (Changes.forHosts s.endVote (lapsedBy s n) (fun t h => t.putSession h ((t.sessions.get h).ended .lapsed)) fun _ m =>
      .single (.session m _))
  have hfreed := hlapsed.trans (Changes.freeAll _ (slotsWhere s.slots fun _ => true) .clearAll)
  exact hfreed.trans
    (Changes.forHosts _ (lapsedBy s n) (fun t h => (t.clearBoard h).flag h fun f => { f with lapsedCleared := true })
      fun _ m => .tail (.single (.clears m)) (.votes (.flag _ m _)))

/-- What every elementary change keeps, every chain keeps. -/
theorem Changes.keeps {s t : State} (h : Changes s t) {P : State → Prop} (hP : ∀ u v, Change u v → P u → P v) (hs : P s) :
    P t := by
  induction h with
  | refl => exact hs
  | tail _ hstep ih => exact hP _ _ hstep ih

end Sys2Proof.Machine
end

section
/-! SUPPORT. Where the records of the table come from: after every effect, each record stands, has moved, has settled, has new settings,
or was made by a claim. -/

namespace Sys2Proof.Machine

/-! ## The record of a claim -/

/-- The record a claim makes outranks the waiting records of its lines, granted, where the claim is granted at once (R32). -/
theorem State.outranks_grantInto {s : State} {n : HostId} {a : ClaimArgs}
    (hgrant : arrivalGrantable s.slots (s.profile.hosts.get n).priority a.entries = true) (i : SlotId) :
    (s.grantInto i (newRecord s n a)).outranks ((newRecord s n a).granted s.now s.profile.settle) := by
  intro j w hw hwaiting l hwl hl
  obtain ⟨e, he, rfl⟩ := ((newRecord s n a).names_iff l).mp ((Record.granted_names _ _ _ _).symm.trans hl)
  rw [State.grantInto_slots, Table.get_set] at hw
  split at hw
  · cases hw
    exact absurd hwaiting (Record.granted_live _ _ _)
  · have hlt := ((arrivalGrantable_iff s n a).mp hgrant e.line ⟨e, he, rfl⟩).2 j w hw hwaiting hwl
    obtain ⟨_, _, hpriority, _⟩ := (Record.Moved.granted (now := s.now) (settle := s.profile.settle) (window := 0)
      (r := newRecord s n a) rfl).keeps
    rw [hpriority]
    exact le_of_lt hlt

/-- The slot of a claim granted at once holds its record granted: no preemptor stands against it (R21, R43, R44). -/
theorem State.claims_slot {s : State} {n : HostId} {a : ClaimArgs}
    (hgrant : arrivalGrantable s.slots (s.profile.hosts.get n).priority a.entries = true) (i : SlotId) :
    (s.grantInto i (newRecord s n a)).eligibility.slots.get i
      = some ((newRecord s n a).granted s.now s.profile.settle) := by
  have hslot : (s.grantInto i (newRecord s n a)).slots.get i = some ((newRecord s n a).granted s.now s.profile.settle) := by
    rw [State.grantInto_slots, Table.get_set_self]
  rw [State.eligibility_slots, hslot, Option.map_some,
    State.not_demanded_of_outranks hslot (Record.granted_live _ _ _) (State.outranks_grantInto hgrant i),
    Record.answers_of_held]
  rw [Record.granted_state]
  split
  · exact .inr rfl
  · exact .inl rfl

/-- A record that passes the walk's test is grantable (R31). -/
theorem State.canGrant_of_grantable {s : State} {i : SlotId} {r : Record} (hr : s.slots.get i = some r)
    (h : grantable s.slots i r = true) : s.canGrant i r := by
  intro l hl
  obtain ⟨hidle, hhead⟩ := grantable_spec h hl
  refine ⟨by rw [← State.holderOf_isSome, hidle]; simp, fun j w hw _ hwaiting hwl => ?_⟩
  obtain ⟨r', hr', _, _, hfirst⟩ := State.first_of_headOf hhead
  obtain rfl := Option.some.inj (hr.symm.trans hr')
  exact hfirst j w hw hwaiting hwl

/-- Steps of the walk leave a record that is not grantable (R31, R34). -/
theorem State.foldl_tryGrant_slot (w : List SlotId) {s : State} {i : SlotId} (h : ¬ s.grantableAt i) :
    (w.foldl State.tryGrant s).slots.get i = s.slots.get i := by
  induction w generalizing s with
  | nil => rfl
  | cons j w ih =>
    have hslot : (s.tryGrant j).slots.get i = s.slots.get i := by
      rcases s.tryGrant_cases j with heq | ⟨r, hr, hwaiting, hgrantable, heq⟩ <;> rw [heq]
      rw [State.grant_slots, Table.get_set]
      split
      · rename_i hij
        subst hij
        exact absurd ⟨r, hr, hwaiting, State.canGrant_of_grantable hr hgrantable⟩ h
      · rfl
    rw [List.foldl_cons, ih fun hi => h ((holdsMore_tryGrant s j).grantableAt hi), hslot]

/-- The slot of a record that is neither grantable nor live stands through both evaluations (R34, R51). -/
theorem State.evaluate_slot_of_waiting {s : State} {i : SlotId} {r : Record} (hr : s.slots.get i = some r)
    (hwaiting : r.state = .waiting) (h : ¬ s.grantableAt i) : s.evaluate.slots.get i = some r := by
  have hwalk : s.grantWalk.slots.get i = some r := (State.foldl_tryGrant_slot _ h).trans hr
  rw [State.evaluate, State.eligibility_slots, hwalk, Option.map_some, Record.answers_of_not_presenting (.inl hwaiting)]

/-- An arriving record that finds a line held, or a WAITING record of its line ranked as high, is not grantable (R31, R32). -/
theorem State.not_grantableAt_arrival {s : State} {n : HostId} {a : ClaimArgs} {i : SlotId}
    (hfree : s.slots.get i = none)
    (hwait : arrivalGrantable s.slots (s.profile.hosts.get n).priority a.entries = false) :
    ¬ (s.putRecord i (newRecord s n a)).grantableAt i := by
  rintro ⟨r, hr, _, hgrant⟩
  obtain rfl : newRecord s n a = r := by simpa using hr
  have hother {j : SlotId} {w : Record} (hw : w ∈ s.slots.get j) :
      j ≠ i ∧ w ∈ (s.putRecord i (newRecord s n a)).slots.get j := by
    have hji : j ≠ i := fun heq => by rw [heq, hfree] at hw; cases hw
    exact ⟨hji, by rw [State.putRecord_slots, Table.get_set_ne _ _ hji]; exact hw⟩
  rw [← Bool.not_eq_true, arrivalGrantable_iff] at hwait
  refine hwait fun l hl => ?_
  obtain ⟨e, he, rfl⟩ := hl
  obtain ⟨hidle, hfirst⟩ := hgrant e.line ((Record.names_iff _ _).mpr ⟨e, he, rfl⟩)
  refine ⟨fun ⟨j, w, hw, hlive, hwl⟩ => hidle ⟨j, w, (hother hw).2, hlive, hwl⟩, fun j w hw hwaiting hwl => ?_⟩
  have hbefore := hfirst j w (hother hw).2 (hother hw).1 hwaiting hwl
  have hentry : w.entry < nextEntry s.slots := entry_lt_nextEntry hw
  simp only [Record.before, newRecord] at hbefore
  omega

/-- The slot of a queued claim holds its record, WAITING (R21). -/
theorem State.queues_slot {s : State} {n : HostId} {a : ClaimArgs} {i : SlotId} (hfree : s.slots.get i = none)
    (hwait : arrivalGrantable s.slots (s.profile.hosts.get n).priority a.entries = false) :
    (s.putRecord i (newRecord s n a)).evaluate.slots.get i = some (newRecord s n a) :=
  State.evaluate_slot_of_waiting (by simp) rfl (State.not_grantableAt_arrival hfree hwait)

/-! ## Settle ends -/

/-- The slots after a settle end that a preemptor faces (R54). -/
theorem State.settleEnd_slots_faced {s : State} {i : SlotId} {r : Record} (hd : demanded s.slots s.eligible r = true)
    (j : SlotId) :
    (s.settleEnd i r).slots.get j =
      if j = i then some (r.inHeld.inYielding s.now s.profile.yieldWindow) else s.slots.get j := by
  rw [State.settleEnd, if_pos hd]
  have hslots : (s.enterHeld i r).slots = s.slots.set i (some r.asHeld) := rfl
  simp only [State.enterYielding, State.post_slots, State.reportPass_slots, State.putRecord_slots, hslots, Table.get_set]
  split <;> rfl

/-- The slots after a settle end that none faces: the record in HELD, and the test of R51 made of each record (R45, R48). -/
theorem State.settleEnd_slots {s : State} {i : SlotId} {r : Record} (hd : demanded s.slots s.eligible r = false)
    (hr : s.slots.get i = some r) (j : SlotId) :
    (s.settleEnd i r).slots.get j =
      (if j = i then some r.inHeld else s.slots.get j).map fun w =>
        w.answers (demanded s.slots (eligibleSet (s.slots.set i (some r.inHeld))) w) s.now s.profile.yieldWindow := by
  have hslots : ((s.enterHeld i r).post r.owner r.ticket .granted).slots = s.slots.set i (some r.inHeld) := rfl
  obtain ⟨hnow, _, _, _, _, _, hprofile, _⟩ :=
    ((tableOnly.enterHeld s i r).trans (.post _ r.owner r.ticket .granted)).kept
  rw [State.settleEnd, if_neg (by simp [hd]), State.eligibility_slots, hslots, hnow, hprofile, Table.get_set]
  refine congrArg (fun f => Option.map f _) (funext fun w => ?_)
  rw [demanded_of_lines (t := s.slots) (fun j => ?_) _ rfl]
  rw [Table.get_set]
  split
  · rename_i hj; subst hj; rw [hr]; rfl
  · rfl

/-! ## The table through the Session Unit's operations -/

/-- Table, set of eligible preemptors, cells and time are the same in `s` and `t`, and the profile but for its state. -/
def sameTable (s t : State) : Prop :=
  t.slots = s.slots ∧ t.eligible = s.eligible ∧ t.cells = s.cells ∧ t.now = s.now ∧ t.resetn = s.resetn
    ∧ t.profile = { s.profile with state := t.profile.state }

/-- The vote's operations leave the table. -/
theorem voteSide.sameTable {s t : State} (h : voteSide s t) : sameTable s t := by
  obtain ⟨hnow, hresetn, hslots, heligible, hcells, hprofile⟩ := h.kept
  exact ⟨hslots, heligible, hcells, hnow, hresetn, hprofile⟩

/-- One change beside the table follows another. -/
theorem sameTable.trans {s t u : State} (h1 : sameTable s t) (h2 : sameTable t u) : sameTable s u := by
  obtain ⟨s1, e1, c1, n1, r1, p1⟩ := h1
  obtain ⟨s2, e2, c2, n2, r2, p2⟩ := h2
  exact ⟨s2.trans s1, e2.trans e1, c2.trans c1, n2.trans n1, r2.trans r1, by rw [p2, p1]⟩

/-- A board cleared leaves the table. -/
theorem sameTable.clearBoard (s : State) (n : HostId) : sameTable s (s.clearBoard n) := ⟨rfl, rfl, rfl, rfl, rfl, rfl⟩

/-- A session put in place leaves the table. -/
theorem sameTable.putSession (s : State) (n : HostId) (c : Session) : sameTable s (s.putSession n c) :=
  ⟨rfl, rfl, rfl, rfl, rfl, rfl⟩

/-- ATTACH from DETACHED or LAPSED leaves the table (R95). -/
theorem sameTable.beginSession (s : State) (n : HostId) (p : Nat) : sameTable s (s.beginSession n p) :=
  ((sameTable.clearBoard s n).trans (.putSession _ n _)).trans (voteSide.hostJoined _ n).sameTable

/-- A restart leaves the table as the freeing of the host's records leaves it (R96). -/
theorem sameTable.restartSession (s : State) (n : HostId) (p : Nat) : sameTable (s.freeHost n) (s.restartSession n p) :=
  (((sameTable.clearBoard (s.freeHost n) n).trans (voteSide.setVoted _ n false).sameTable).trans (.putSession _ n _)).trans
    (voteSide.hostRestarted _ n).sameTable

/-- DETACH from ATTACHED leaves the table as the freeing of the host's records leaves it (R100). -/
theorem sameTable.detachAttached (s : State) (n : HostId) :
    sameTable ((s.putSession n ((s.sessions.get n).ended .detached)).freeHost n) (s.detachAttached n) :=
  (sameTable.clearBoard _ n).trans (voteSide.hostLeft _ n).sameTable

/-- A lapse leaves the table as the freeing of the host's records leaves it (R99). -/
theorem sameTable.lapse (s : State) (n : HostId) :
    sameTable ((s.putSession n ((s.sessions.get n).ended .lapsed)).freeHost n) (s.lapse n) :=
  ((sameTable.clearBoard _ n).trans (voteSide.flag _ n _).sameTable).trans (voteSide.hostLeft _ n).sameTable

/-- A change beside the table made for each host of a set. -/
theorem sameTable.forHosts (s : State) (w : HostSet) (f : State → HostId → State) (h : ∀ t n, sameTable t (f t n)) :
    sameTable s (s.forHosts w f) :=
  State.forHosts_induct (sameTable s) s w f ⟨rfl, rfl, rfl, rfl, rfl, rfl⟩ fun t n _ ht => ht.trans (h t n)

/-- The sessions CLEAR ALL lapses, before it frees the records (R137). -/
def State.cleared (s : State) (n : HostId) : State :=
  s.endVote.forHosts (lapsedBy s n) fun t h => t.putSession h ((t.sessions.get h).ended .lapsed)

/-- The lapsing of sessions leaves the table (R137). -/
theorem sameTable.cleared (s : State) (n : HostId) : sameTable s (s.cleared n) :=
  (voteSide.endVote s).sameTable.trans (.forHosts _ _ _ fun _ _ => ⟨rfl, rfl, rfl, rfl, rfl, rfl⟩)

/-- CLEAR ALL leaves the table as the freeing of every record leaves it (R137). -/
theorem sameTable.clearAll (s : State) (n : HostId) :
    sameTable ((s.cleared n).freeAll (slotsWhere s.slots fun _ => true) .clearAll) (s.clearAll n) :=
  .forHosts _ _ _ fun t m =>
    (sameTable.clearBoard t m).trans (voteSide.flag _ m _).sameTable

/-- CLEAR ALL leaves no record (R137). -/
theorem State.clearAll_slots (s : State) (n : HostId) (j : SlotId) : (s.clearAll n).slots.get j = none := by
  rw [(sameTable.clearAll s n).1, (State.freeAll_run _ _ _).2, mem_slotsWhere, (sameTable.cleared s n).1]
  cases hr : s.slots.get j with
  | none => exact .inr rfl
  | some r => exact .inl ⟨r, by simp⟩

/-! ## Where records come from -/

/-- The record `r'` that stands in slot `j` after an effect on `s`: as it was, moved, settled, with new settings, or made by a claim. -/
inductive Comes (s : State) (j : SlotId) (r' : Record) : Prop
  | stood (h : s.slots.get j = some r')
  | moved (r : Record) (h : s.slots.get j = some r)
    (hmoved : r.Moved s.now s.profile.settle s.profile.yieldWindow (some r'))
  | settled (r : Record) (h : s.slots.get j = some r) (hstate : r.state = .settling)
    (hr' : r' = r.inHeld ∨ r' = r.inHeld.inYielding s.now s.profile.yieldWindow)
  | edited (r : Record) (h : s.slots.get j = some r) (hp : r.presenting = true) (f : Nat → Setting → Setting)
    (hr' : r' = { r with lines := editEntries f r.lines })
  | born (n : HostId) (p : List Byte) (a : ClaimArgs) (hstate : (s.sessions.get n).state = .attached)
    (hargs : claimArgs p = some a) (hpasses : s.passes n a) (hfree : s.lowestFree j)
    (hr' : r' = newRecord s n a ∨ r' = (newRecord s n a).granted s.now s.profile.settle)

/-- What the test of R51 leaves of a record: the record, or the record moved. -/
theorem Record.answers_cases (r : Record) (faced : Bool) (now settle window : Nat) :
    r.answers faced now window = r ∨ r.Moved now settle window (some (r.answers faced now window)) := by
  unfold Record.answers
  split
  · rename_i h; exact .inr (.yielded h.1)
  · split
    · rename_i h; exact .inr (.returned h.1)
    · exact .inl rfl

/-- Records after a run stood or moved. -/
theorem TableRun.comes {cause : FreeCause} {s t : State} {l : List SlotId} (h : TableRun cause s l t) {j : SlotId} {r' : Record}
    (hr' : t.slots.get j = some r') : Comes s j r' := by
  obtain ⟨r, hr, rfl | ⟨_, hmoved⟩⟩ := h.some_of_some hr'
  · exact .stood hr
  · exact .moved r hr hmoved

/-- Records after a freeing of several stood or moved. -/
theorem Comes.of_freeAll {s u t : State} {w : List SlotId} {cause : FreeCause} (ht : t.slots = (u.freeAll w cause).slots)
    (hslots : u.slots = s.slots) (hnow : u.now = s.now)
    (hprofile : u.profile.settle = s.profile.settle ∧ u.profile.yieldWindow = s.profile.yieldWindow) {j : SlotId} {r' : Record}
    (hr' : t.slots.get j = some r') : Comes s j r' := by
  obtain ⟨⟨m, hrun⟩, _⟩ := u.freeAll_run w cause
  rw [ht] at hr'
  obtain ⟨r, hr, rfl | ⟨_, hmoved⟩⟩ := hrun.some_of_some hr'
  · exact .stood (hslots ▸ hr)
  · rw [hnow, hprofile.1, hprofile.2] at hmoved
    exact .moved r (hslots ▸ hr) hmoved

/-- A claim granted at once leaves the other records standing or passed. -/
theorem State.claims_slots_ne {s : State} {i j : SlotId} (hj : j ≠ i) (r : Record) {r' : Record}
    (hr' : (s.grantInto i r).eligibility.slots.get j = some r') :
    ∃ w, s.slots.get j = some w ∧ ∃ d, r' = w.answers d s.now s.profile.yieldWindow := by
  obtain ⟨hnow, _, _, _, _, _, hprofile, _⟩ := (tableOnly.grantInto s i r).kept
  rw [State.eligibility_slots, State.grantInto_slots, Table.get_set_ne _ _ hj, hnow, hprofile] at hr'
  obtain ⟨w, hw, rfl⟩ := Option.map_eq_some_iff.mp hr'
  exact ⟨w, hw, _, rfl⟩

/-- Where each record comes from, effect by effect. -/
theorem Effect.comes {c : Instr} {s t : State} (h : Effect c s t) {j : SlotId} {r' : Record} (hr' : t.slots.get j = some r') :
    Comes s j r' := by
  cases h with
  | stands | rises | beats | unparks | fetches | bonds | editsHost | times | commits | unblanks => exact .stood hr'
  | falls dt _ _ h =>
    obtain rfl := Host.Outcome.next.inj h
    rw [Table.get_fill] at hr'
    cases hr'
  | begins dt n p => exact .stood ((sameTable.beginSession s n p).1 ▸ hr')
  | restarts dt n p =>
    exact .of_freeAll (u := s) (sameTable.restartSession s n p).1 rfl rfl ⟨rfl, rfl⟩ hr'
  | detaches dt n => exact .of_freeAll (s := s) (u := s.putSession n _) (sameTable.detachAttached s n).1 rfl rfl ⟨rfl, rfl⟩ hr'
  | closes => exact .stood hr'
  | lapses n => exact .of_freeAll (s := s) (u := s.putSession n _) (sameTable.lapse s n).1 rfl rfl ⟨rfl, rfl⟩ hr'
  | claims dt n p a i _ hr hstate hargs hchecks hfree hgrant =>
    by_cases hj : j = i
    · subst hj
      rw [State.claims_slot hgrant] at hr'
      exact .born n p a hstate hargs ((claimRefusal_eq_none s n a).mp hchecks) ((freeSlot_eq_some s j).mp hfree)
        (.inr (Option.some.inj hr').symm)
    · obtain ⟨w, hw, d, rfl⟩ := State.claims_slots_ne hj _ hr'
      rcases w.answers_cases d s.now s.profile.settle s.profile.yieldWindow with heq | hmoved
      · exact .stood (heq.symm ▸ hw)
      · exact .moved w hw hmoved
  | queues dt n p a i _ hr hstate hargs hchecks hfree hwait =>
    have hlowest := (freeSlot_eq_some s i).mp hfree
    by_cases hj : j = i
    · subst hj
      rw [State.queues_slot hlowest.1 hwait] at hr'
      exact .born n p a hstate hargs ((claimRefusal_eq_none s n a).mp hchecks) hlowest (.inl (Option.some.inj hr').symm)
    · obtain ⟨m, hrun⟩ := (s.putRecord i (newRecord s n a)).evaluate_run_self .released
      have hslot : (s.putRecord i (newRecord s n a)).slots.get j = s.slots.get j := by
        rw [State.putRecord_slots, Table.get_set_ne _ _ hj]
      obtain ⟨r, hr, rfl | ⟨_, hmoved⟩⟩ := hrun.some_of_some hr'
      · exact .stood (hslot ▸ hr)
      · exact .moved r (hslot ▸ hr) hmoved
  | releases | revokes | expires => exact .of_freeAll (u := s) rfl rfl rfl ⟨rfl, rfl⟩ hr'
  | settles i r _ hrec hstate =>
    cases hd : demanded s.slots s.eligible r with
    | true =>
      rw [State.settleEnd_slots_faced hd] at hr'
      split at hr'
      · rename_i hj
        subst hj
        exact .settled r hrec hstate (.inr (Option.some.inj hr').symm)
      · exact .stood hr'
    | false =>
      rw [State.settleEnd_slots hd hrec] at hr'
      obtain ⟨w, hw, hanswer⟩ := Option.map_eq_some_iff.mp hr'
      generalize demanded s.slots _ w = d at hanswer
      split at hw
      · rename_i hj
        subst hj
        obtain rfl := Option.some.inj hw
        refine .settled r hrec hstate ?_
        rw [← hanswer]
        cases d
        · exact .inl rfl
        · exact .inr rfl
      · rcases w.answers_cases d s.now s.profile.settle s.profile.yieldWindow with heq | hmoved
        · exact .stood (hanswer ▸ heq.symm ▸ hw)
        · exact .moved w hw (hanswer ▸ hmoved)
  | levels dt i r a _ hrec hp =>
    rw [show (s.resettle i r _ _).slots = s.slots.set i (some _) from rfl, Table.get_set] at hr'
    split at hr'
    · rename_i hj
      subst hj
      exact .edited r hrec hp _ (Option.some.inj hr').symm
    · exact .stood hr'
  | reconfigures dt i r named _ hrec hp =>
    rw [show (s.applySettings i r named).slots = s.slots.set i (some _) from rfl, Table.get_set] at hr'
    split at hr'
    · rename_i hj
      subst hj
      exact .edited r hrec hp _ (Option.some.inj hr').symm
    · exact .stood hr'
  | editsLines dt es =>
    unfold State.applyLineProfile at hr'
    dsimp only at hr'
    split at hr'
    · exact .stood hr'
    · exact .of_freeAll (s := s) (u := (s.storeLines es).tellRest es) rfl rfl rfl ⟨rfl, rfl⟩ hr'
  | votes dt n => exact .stood ((voteSide.reopenVote s n).kept.2.2.1 ▸ hr')
  | clears dt n => rw [State.clearAll_slots] at hr'; cases hr'
  | samples levels => exact .stood (by rwa [State.tick_frame] at hr')
  | failsVote => exact .stood ((voteSide.failVote s _).kept.2.2.1 ▸ hr')

end Sys2Proof.Machine
end

section
/-! SUPPORT. What an effect does to the profile and to each session. -/

namespace Sys2Proof.Machine

/-! ## The profile -/

/-- What an effect can do to the profile: its state alone changes, a reset gives every default, or one of the edits of the OPEN profile is
made. -/
inductive ProfileMoves (c : Instr) (s t : State) : Prop
  | stands (h : t.profile = { s.profile with state := t.profile.state })
  | resets (dt : Nat) (hc : c = .hardwareReset dt) (h : t.profile = Profile.reset) (hempty : ∀ j, t.slots.get j = none)
  | lines (hopen : s.profile.state = .opened) (es : List (LineId × LineProfile)) (h : t.profile = (s.storeLines es).profile)
  | bonds (hopen : s.profile.state = .opened) (g : GroupId) (v : Bool) (h : t.profile = (s.setBonded g v).profile)
  | host (hopen : s.profile.state = .opened) (a : HostArgs) (hadmin : ¬ (a.admin = false ∧ s.profile.admin = bitOf a.host))
    (hquota : recordCount s.slots a.host ≤ a.quota) (h : t.profile = (s.setHost a).profile) (hslots : t.slots = s.slots)
  | timing (hopen : s.profile.state = .opened) (p : List Byte) (a : TimingArgs) (hargs : timingArgs p = some a)
    (h : t.profile = (s.setTiming a).profile)

/-- A profile as it was stands. -/
theorem ProfileMoves.of_eq {c : Instr} {s t : State} (h : t.profile = s.profile) : ProfileMoves c s t :=
  .stands (by rw [h])

/-- Changes of the table leave the profile. -/
theorem ProfileMoves.of_tableOnly {c : Instr} {s t : State} (h : tableOnly s t) : ProfileMoves c s t := by
  obtain ⟨_, _, _, _, _, _, hprofile, _⟩ := h.kept
  exact .of_eq hprofile

/-- A freeing of several records leaves the profile. -/
theorem State.freeAll_profile (s : State) (w : List SlotId) (cause : FreeCause) : (s.freeAll w cause).profile = s.profile :=
  have ⟨_, _, _, _, _, _, h, _⟩ := (tableOnly.freeAll s w cause).kept
  h

/-- What an effect does to the profile. -/
theorem Effect.profileMoves {c : Instr} {s t : State} (h : Effect c s t) : ProfileMoves c s t := by
  cases h with
  | stands | rises | beats | unparks | fetches | unblanks | closes | levels | reconfigures => exact .of_eq rfl
  | commits => exact .stands rfl
  | falls dt _ _ h =>
    obtain rfl := Host.Outcome.next.inj h
    exact .resets dt rfl rfl fun j => by simp
  | begins dt n p => exact .stands (sameTable.beginSession s n p).2.2.2.2.2
  | restarts dt n p =>
    have h := (sameTable.restartSession s n p).2.2.2.2.2
    rw [State.freeHost, State.freeAll_profile] at h
    exact .stands h
  | detaches dt n =>
    have h := (sameTable.detachAttached s n).2.2.2.2.2
    rw [State.freeHost, State.freeAll_profile] at h
    exact .stands h
  | lapses n =>
    have h := (sameTable.lapse s n).2.2.2.2.2
    rw [State.freeHost, State.freeAll_profile] at h
    exact .stands h
  | claims => exact .of_tableOnly (tableOnly.claims s _ _)
  | queues => exact .of_tableOnly (tableOnly.queues s _ _)
  | releases | revokes | expires => exact .of_eq (State.freeAll_profile _ _ _)
  | settles => exact .of_tableOnly (tableOnly.settleEnd s _ _)
  | editsLines dt es _ hopen =>
    have ⟨_, _, _, _, _, _, h, _⟩ := (s.applyLineProfile_frame es).kept
    exact .lines hopen es h
  | bonds dt g v _ hopen => exact .bonds hopen g v rfl
  | editsHost dt a _ hopen hadmin hquota => exact .host hopen a hadmin hquota rfl rfl
  | times dt p a _ hopen hargs => exact .timing hopen p a hargs rfl
  | votes dt n => exact .stands (voteSide.reopenVote s n).sameTable.2.2.2.2.2
  | clears dt n =>
    have h := (sameTable.clearAll s n).2.2.2.2.2
    rw [State.freeAll_profile] at h
    exact .stands (by rw [h, (sameTable.cleared s n).2.2.2.2.2])
  | samples levels => exact .of_eq (by rw [State.tick_frame])
  | failsVote => exact .stands (voteSide.failVote s _).sameTable.2.2.2.2.2

/-! ## The sessions -/

/-- What an effect can do to host `n`'s session. -/
inductive SessionMoves (c : Instr) (s t : State) (n : HostId) : Prop
  /-- The vote flag alone changes. -/
  | stands (h : t.sessions.get n = { s.sessions.get n with voted := (t.sessions.get n).voted })
  | resets (dt : Nat) (hc : c = .hardwareReset dt) (h : t.sessions.get n = Session.reset) (hempty : ∀ j, t.slots.get j = none)
  | begins (dt p d : Nat) (hc : c = .attach dt n) (hp : 1 ≤ p ∧ p ≤ 1000)
    (h : t.sessions.get n = { (s.sessions.get n).begun p d with voted := (t.sessions.get n).voted })
  | beats (p d : Nat) (hstate : (s.sessions.get n).state = .attached) (hp : 1 ≤ p ∧ p ≤ 1000)
    (h : t.sessions.get n = { s.sessions.get n with period := p, deadline := some d })
  | ends (st : SessState) (hst : st ≠ .attached)
    (h : t.sessions.get n = { (s.sessions.get n).ended st with voted := (t.sessions.get n).voted })
    (hgone : (∀ j r, t.slots.get j = some r → r.owner ≠ n) ∨ ((s.sessions.get n).state ≠ .attached ∧ t.slots = s.slots))

/-- Sessions as they were stand. -/
theorem SessionMoves.of_eq {c : Instr} {s t : State} (h : t.sessions = s.sessions) (n : HostId) : SessionMoves c s t n :=
  .stands (by rw [h])

/-- Changes of the table leave the sessions. -/
theorem SessionMoves.of_tableOnly {c : Instr} {s t : State} (h : tableOnly s t) (n : HostId) : SessionMoves c s t n := by
  obtain ⟨_, _, _, _, _, hsessions, _, _⟩ := h.kept
  exact .of_eq hsessions n

/-- A freeing of several records leaves the sessions. -/
theorem State.freeAll_sessions (s : State) (w : List SlotId) (cause : FreeCause) : (s.freeAll w cause).sessions = s.sessions :=
  have ⟨_, _, _, _, _, h, _, _⟩ := (tableOnly.freeAll s w cause).kept
  h

/-- A freeing of a host's records leaves the sessions, and so does a board cleared after it. -/
theorem State.freeHost_clearBoard_sessions (s : State) (n : HostId) : ((s.freeHost n).clearBoard n).sessions = s.sessions := by
  have hclear (u : State) : (u.clearBoard n).sessions = u.sessions := rfl
  rw [hclear, State.freeHost, State.freeAll_sessions]

/-- A freeing of a host's records leaves none of them (R9). -/
theorem State.freeHost_slots (s : State) (n : HostId) {j : SlotId} {r : Record} (h : (s.freeHost n).slots.get j = some r) :
    r.owner ≠ n := by
  intro howner
  obtain ⟨⟨m, hrun⟩, hnone⟩ := s.freeAll_run (slotsWhere s.slots fun r => r.owner == n) .sessionEnd
  obtain ⟨w, hw, hcase⟩ := hrun.some_of_some h
  have hwowner : w.owner = n := by
    rcases hcase with rfl | ⟨_, hmoved⟩
    · exact howner
    · exact hmoved.keeps.1.symm.trans howner
  have hfreed := (hnone j).mpr (.inl ((mem_slotsWhere _ _ _).mpr ⟨w, hw, by simpa using hwowner⟩))
  rw [State.freeHost, hfreed] at h
  cases h

/-- One session put in place, and then one of the vote's operations: what the sessions are. -/
theorem SessionMoves.of_put {s u t : State} {n : HostId} {x : Session} (hu : u.sessions = s.sessions.set n x)
    (hside : voteSide u t) (m : HostId) :
    (m = n ∧ t.sessions.get m = { x with voted := (t.sessions.get m).voted })
      ∨ (m ≠ n ∧ t.sessions.get m = { s.sessions.get m with voted := (t.sessions.get m).voted }) := by
  have h := hside.2.1 m
  rw [hu, Table.get_set] at h
  by_cases hm : m = n
  · rw [if_pos hm] at h
    exact .inl ⟨hm, h⟩
  · rw [if_neg hm] at h
    exact .inr ⟨hm, h⟩

/-- What an effect does to each session. -/
theorem Effect.sessionMoves {c : Instr} {s t : State} (h : Effect c s t) (m : HostId) : SessionMoves c s t m := by
  cases h with
  | stands | rises | levels | reconfigures | unparks | fetches | bonds | editsHost | times | commits | unblanks =>
    exact .stands rfl
  | falls dt _ _ h =>
    obtain rfl := Host.Outcome.next.inj h
    exact .resets dt rfl (by simp) fun j => by simp
  | begins dt n p _ _ hp =>
    rcases SessionMoves.of_put (s := s)
      (u := (s.clearBoard n).putSession n ((s.sessions.get n).begun p (s.heartbeatEnd p))) rfl (voteSide.hostJoined _ n) m with ⟨rfl, h⟩ | ⟨_, h⟩
    · exact .begins dt p _ rfl hp h
    · exact .stands h
  | restarts dt n p _ _ hp =>
    have hsessions : (((((s.freeHost n).clearBoard n).setVoted n false).putSession n
        (((((s.freeHost n).clearBoard n).setVoted n false).sessions.get n).begun p (s.heartbeatEnd p))).sessions)
        = s.sessions.set n ((s.sessions.get n).begun p (s.heartbeatEnd p)) := by
      simp [State.freeHost, State.freeAll_sessions, Session.begun]
    rcases SessionMoves.of_put hsessions (voteSide.hostRestarted _ n) m with ⟨rfl, h⟩ | ⟨_, h⟩
    · exact .begins dt p _ rfl hp h
    · exact .stands h
  | detaches dt n =>
    have hsessions : (((s.putSession n ((s.sessions.get n).ended .detached)).freeHost n).clearBoard n).sessions
        = s.sessions.set n ((s.sessions.get n).ended .detached) := by
      rw [State.freeHost_clearBoard_sessions]; rfl
    have hside : voteSide _ (s.detachAttached n) := voteSide.hostLeft _ n
    rcases SessionMoves.of_put hsessions hside m with ⟨rfl, h⟩ | ⟨_, h⟩
    · refine .ends .detached (by simp) h (.inl fun j r hr => ?_)
      rw [(sameTable.detachAttached s m).1] at hr
      exact State.freeHost_slots _ _ hr
    · exact .stands h
  | closes dt n _ hstate =>
    rcases SessionMoves.of_put (s := s) (u := s.detachLapsed n) rfl (.refl _) m with ⟨rfl, h⟩ | ⟨_, h⟩
    · exact .ends .detached (by simp) h (.inr ⟨hstate, rfl⟩)
    · exact .stands h
  | beats dt n p _ hstate hp =>
    by_cases hm : m = n
    · subst hm
      exact .beats p (s.heartbeatEnd p) hstate hp (by simp)
    · exact .stands (by simp [Table.get_set_ne _ _ hm])
  | lapses n =>
    have hsessions : (((s.putSession n ((s.sessions.get n).ended .lapsed)).freeHost n).clearBoard n).sessions
        = s.sessions.set n ((s.sessions.get n).ended .lapsed) := by
      rw [State.freeHost_clearBoard_sessions]; rfl
    have hside : voteSide _ (s.lapse n) := (voteSide.flag _ n _).trans (voteSide.hostLeft _ n)
    rcases SessionMoves.of_put hsessions hside m with ⟨rfl, h⟩ | ⟨_, h⟩
    · refine .ends .lapsed (by simp) h (.inl fun j r hr => ?_)
      rw [(sameTable.lapse s m).1] at hr
      exact State.freeHost_slots _ _ hr
    · exact .stands h
  | claims => exact .of_tableOnly (tableOnly.claims s _ _) m
  | queues => exact .of_tableOnly (tableOnly.queues s _ _) m
  | releases | revokes | expires => exact .of_tableOnly (tableOnly.freeAll s _ _) m
  | settles => exact .of_tableOnly (tableOnly.settleEnd s _ _) m
  | editsLines dt es =>
    have ⟨_, _, _, _, _, h, _, _⟩ := (s.applyLineProfile_frame es).kept
    exact .of_eq (s := s) h m
  | votes dt n => exact .stands ((voteSide.reopenVote s n).2.1 m)
  | clears dt n =>
    have hcleared : (s.cleared n).sessions.get m = { s.sessions.get m with voted := false }
        ∨ (s.cleared n).sessions.get m = (s.sessions.get m).ended .lapsed := by
      refine State.forHosts_induct (fun u => u.sessions.get m = { s.sessions.get m with voted := false }
        ∨ u.sessions.get m = (s.sessions.get m).ended .lapsed) _ _ _ (.inl (by simp)) fun u k _ hu => ?_
      rw [State.putSession_sessions, Table.get_set]
      split
      · rename_i hmk
        subst hmk
        right
        rcases hu with hu | hu <;> rw [hu] <;> rfl
      · exact hu
    have hafter : (s.clearAll n).sessions = (s.cleared n).sessions := by
      refine State.forHosts_induct (fun u => u.sessions = (s.cleared n).sessions) _ _ _ (State.freeAll_sessions _ _ _)
        fun u k _ hu => hu
    rw [← hafter] at hcleared
    rcases hcleared with h | h
    · exact .stands (by rw [h])
    · exact .ends .lapsed (by simp) (by rw [h]) (.inl fun j r hr => by rw [State.clearAll_slots] at hr; cases hr)
  | samples levels => exact .of_eq (by rw [State.tick_frame]) m
  | failsVote => exact .stands ((voteSide.failVote s _).2.1 m)

end Sys2Proof.Machine
end

section
/-! SUPPORT. Every step keeps quotas and an admin (R10, R129), and deadlines, intervals and attached owners (R4, R9, R90, R143). -/

namespace Sys2Proof.Machine

/-! ## Counts of records -/

/-- Those that pass one of two tests are no more than those that pass the first and those that pass the second. -/
theorem countP_or_le {α : Type} (p q : α → Bool) (l : List α) :
    (l.countP fun x => p x || q x) ≤ l.countP p + l.countP q := by
  induction l with
  | nil => simp
  | cons x l ih =>
    simp only [List.countP_cons]
    cases p x <;> cases q x <;> simp <;> omega

/-- A host owns no more records where each of them was its own before, but for one new one. -/
theorem State.countOf_le {s t : State} {m : HostId} (i : SlotId)
    (h : ∀ j r', t.slots.get j = some r' → r'.owner = m → j ≠ i → ∃ r, s.slots.get j = some r ∧ r.owner = m) :
    t.countOf m ≤ s.countOf m + 1 := by
  have hone : (List.finRange 32).countP (fun j => j == i) = 1 :=
    (List.count_eq_one_of_mem (List.nodup_finRange 32) (List.mem_finRange i))
  calc
    t.countOf m ≤ (List.finRange 32).countP fun j =>
        (match s.slots.get j with | some r => r.owner == m | none => false) || j == i :=
      List.countP_mono_left fun j _ hj => by
        cases hr' : t.slots.get j with
        | none => simp [hr'] at hj
        | some r' =>
          by_cases hji : j = i
          · simp [hji]
          · obtain ⟨r, hr, howner⟩ := h j r' hr' (by simpa [hr'] using hj) hji
            simp [hr, howner]
    _ ≤ s.countOf m + (List.finRange 32).countP fun j => j == i := countP_or_le _ _ _
    _ = s.countOf m + 1 := by rw [hone]

/-- A host owns no more records where each of them was its own before. -/
theorem State.countOf_mono {s t : State} {m : HostId}
    (h : ∀ j r', t.slots.get j = some r' → r'.owner = m → ∃ r, s.slots.get j = some r ∧ r.owner = m) :
    t.countOf m ≤ s.countOf m := by
  refine List.countP_mono_left fun j _ hj => ?_
  cases hr' : t.slots.get j with
  | none => simp [hr'] at hj
  | some r' =>
    obtain ⟨r, hr, howner⟩ := h j r' hr' (by simpa [hr'] using hj)
    simp [hr, howner]

/-- A claim's record, granted or not, is its issuer's (R2). -/
theorem newRecord_owner {s : State} {n : HostId} {a : ClaimArgs} {r : Record} {settle : Nat}
    (h : r = newRecord s n a ∨ r = (newRecord s n a).granted s.now settle) : r.owner = n ∧ r.ticket = a.ticket := by
  rcases h with rfl | rfl
  · exact ⟨rfl, rfl⟩
  · obtain ⟨howner, hticket, _⟩ := (Record.Moved.granted (now := s.now) (settle := settle) (window := 0)
      (r := newRecord s n a) rfl).keeps
    exact ⟨howner, hticket⟩

/-- A record comes from one of the same owner and ticket, or was made by a claim that passed its checks. -/
theorem Comes.owner {s : State} {j : SlotId} {r' : Record} (h : Comes s j r') :
    (∃ r, s.slots.get j = some r ∧ r.owner = r'.owner ∧ r.ticket = r'.ticket)
      ∨ (s.lowestFree j ∧ ∃ a, s.passes r'.owner a ∧ a.ticket = r'.ticket
          ∧ (s.sessions.get r'.owner).state = .attached) := by
  cases h with
  | stood h => exact .inl ⟨r', h, rfl, rfl⟩
  | moved r h hmoved =>
    obtain ⟨howner, hticket, _⟩ := hmoved.keeps
    exact .inl ⟨r, h, howner.symm, hticket.symm⟩
  | settled r h _ hr' => exact .inl ⟨r, h, by rcases hr' with rfl | rfl <;> exact ⟨rfl, rfl⟩⟩
  | edited r h _ _ hr' => subst hr'; exact .inl ⟨r, h, rfl, rfl⟩
  | born n p a hstate _ hpasses hfree hr' =>
    obtain ⟨howner, hticket⟩ := newRecord_owner hr'
    exact .inr ⟨hfree, a, howner ▸ hpasses, hticket.symm, howner ▸ hstate⟩

/-- An effect makes a host's records no more, or one more where its quota leaves room (R10, R19). -/
theorem Effect.countOf {c : Instr} {s t : State} (h : Effect c s t) (m : HostId) :
    t.countOf m ≤ s.countOf m
      ∨ (t.countOf m ≤ s.countOf m + 1 ∧ s.countOf m < (s.profile.hosts.get m).quota ∧ s.countOf m + s.orphansOf m < 32) := by
  by_cases hnew : ∃ i r, t.slots.get i = some r ∧ r.owner = m ∧ s.slots.get i = none
  · obtain ⟨i, r, hr, rfl, hnone⟩ := hnew
    rcases (h.comes hr).owner with ⟨w, hw, _⟩ | ⟨hlowest, a, ⟨_, _, _, hquota, hroom, _⟩, _⟩
    · rw [hnone] at hw; cases hw
    · refine .inr ⟨State.countOf_le i fun j r' hr' howner hji => ?_, hquota, hroom⟩
      rcases (h.comes hr').owner with ⟨w, hw, hwowner, _⟩ | ⟨hlowest', _⟩
      · exact ⟨w, hw, hwowner.trans howner⟩
      · refine absurd (le_antisymm ?_ ?_) hji
        · exact not_lt.mp fun hlt => hlowest'.2 i hlt hlowest.1
        · exact not_lt.mp fun hlt => hlowest.2 j hlt hlowest'.1
  · refine .inl (State.countOf_mono fun j r' hr' howner => ?_)
    rcases (h.comes hr').owner with ⟨w, hw, hwowner, _⟩ | ⟨hlowest, _⟩
    · exact ⟨w, hw, hwowner.trans howner⟩
    · exact absurd ⟨j, r', hr', howner, hlowest.1⟩ hnew

/-! ## Quotas and the admin mask -/

/-- Every effect keeps quotas and an admin (R10, R129). -/
theorem Effect.keeps_quotas {c : Instr} {s t : State} (h : Effect c s t) (hs : s.withinQuota ∧ s.hasAdmin) :
    t.withinQuota ∧ t.hasAdmin := by
  obtain ⟨hquota, hadmin⟩ := hs
  have hcount (hhosts : t.profile.hosts = s.profile.hosts) : t.withinQuota := fun m => by
    rw [hhosts]
    have hm := hquota m
    rcases h.countOf m with hle | ⟨hle, hlt, _⟩ <;> omega
  cases h.profileMoves with
  | stands hp => exact ⟨hcount (by rw [hp]), by rw [State.hasAdmin, hp]; exact hadmin⟩
  | resets dt hc hp hempty =>
    refine ⟨fun m => ?_, by rw [State.hasAdmin, hp]; decide⟩
    have hzero : t.countOf m = 0 := List.countP_eq_zero.mpr fun j _ => by simp [hempty j]
    rw [hzero]
    exact Nat.zero_le _
  | lines _ es hp => exact ⟨hcount (by rw [hp]; rfl), by rw [State.hasAdmin, hp]; exact hadmin⟩
  | bonds _ g v hp => exact ⟨hcount (by rw [hp]; rfl), by rw [State.hasAdmin, hp]; exact hadmin⟩
  | timing _ p a _ hp => exact ⟨hcount (by rw [hp]; rfl), by rw [State.hasAdmin, hp]; exact hadmin⟩
  | host _ a hkept hbelow hp hslots =>
    constructor
    · intro m
      have hsame : t.countOf m = s.countOf m := by rw [State.countOf, hslots]; rfl
      rw [hsame, hp, State.setHost, Table.get_set]
      split
      · rename_i hm
        subst hm
        rw [← State.recordCount_eq]
        exact hbelow
      · exact hquota m
    · intro hzero
      rw [hp, State.setHost] at hzero
      have hbit (x : HostId) := congrArg (fun v => has v x) hzero
      cases hadm : a.admin with
      | true => simpa [hadm] using hbit a.host
      | false =>
        refine hkept ⟨hadm, ext_has fun x => ?_⟩
        have hx := hbit x
        simp only [hadm, Bool.false_eq_true, if_false, has_and, has_not, has_bitOf, has_zero'] at hx
        rw [has_bitOf]
        by_cases hxh : x = a.host
        · subst hxh
          by_contra hne
          refine hadmin ((eq_zero_iff_has _).mpr fun y => ?_)
          have hy := hbit y
          simp only [hadm, Bool.false_eq_true, if_false, has_and, has_not, has_bitOf, has_zero'] at hy
          by_cases hya : y = a.host
          · subst hya; simpa using hne
          · simpa [hya] using hy
        · simpa [hxh] using hx

/-- What is read off the table and the profile is kept by quiet changes and refreshes. -/
theorem quiet.keeps_quotas {s t : State} (h : quiet s t) (hs : s.withinQuota ∧ s.hasAdmin) : t.withinQuota ∧ t.hasAdmin := by
  rw [h]; exact hs

/-- Settles O59: a record is made only where the quota leaves room, a quota is set only to cover the records there, and the only admin
is not taken out. -/
theorem everyStepKeepsQuotasAndAnAdmin : Obligations.EveryStepKeepsQuotasAndAnAdmin := by
  unfold Obligations.EveryStepKeepsQuotasAndAnAdmin
  intro s t hquota hadmin hstep
  exact step_keeps (P := fun u => u.withinQuota ∧ u.hasAdmin) (fun _ _ h => h) (fun _ _ h hs => h.keeps_quotas hs)
    (fun _ _ h hs => by rw [h.frame]; exact hs) (fun _ _ _ h hs => h.keeps_quotas hs) hstep ⟨hquota, hadmin⟩

end Sys2Proof.Machine
end

section
/-! SUPPORT. Every step keeps deadlines, intervals and attached owners (R4, R9, R90, R143). -/

namespace Sys2Proof.Machine

/-! ## Records -/

/-- R4, for one record: it holds a deadline where its state calls for one. -/
def Record.deadlineRight (r : Record) : Prop :=
  (r.state = .waiting → r.deadline.isSome = r.waitLimit.isSome)
    ∧ (r.state = .settling ∨ r.state = .yielding → r.deadline.isSome = true)
    ∧ (r.state = .held → r.deadline = none)

/-- R143, for one record: the interval its deadline was set by is in range. -/
def Record.spanRight (r : Record) : Prop :=
  (r.state = .waiting → r.span = r.waitLimit.getD 0 ∧ r.span ≤ 65535)
    ∧ (r.state = .settling → 1 ≤ r.span ∧ r.span ≤ 255)
    ∧ (r.state = .yielding → 1 ≤ r.span ∧ r.span ≤ 1000)
    ∧ (r.state = .held → r.span = 0)

/-- A record in HELD holds no deadline (R4). -/
theorem Record.inHeld_right (r : Record) : r.inHeld.deadlineRight ∧ r.inHeld.spanRight := by
  simp [Record.deadlineRight, Record.spanRight, Record.inHeld]

/-- A record in YIELDING holds its yield end (R4, R53). -/
theorem Record.inYielding_right (r : Record) (now : Nat) {window : Nat} :
    (r.inYielding now window).deadlineRight ∧ (1 ≤ window ∧ window ≤ 1000 → (r.inYielding now window).spanRight) := by
  simp [Record.deadlineRight, Record.spanRight, Record.inYielding]

/-- A granted record holds its settle end, or nothing (R4, R43, R44). -/
theorem Record.granted_right (r : Record) (now : Nat) {settle : Nat} :
    (r.granted now settle).deadlineRight ∧ (settle ≤ 255 → (r.granted now settle).spanRight) := by
  unfold Record.granted
  split
  · exact ⟨r.inHeld_right.1, fun _ => r.inHeld_right.2⟩
  · rename_i hsettle
    have hpos : 1 ≤ settle := Nat.one_le_iff_ne_zero.mpr hsettle
    simp [Record.deadlineRight, Record.spanRight, hpos]

/-- The record of a claim holds its wait end where it stores a limit, and the limit is one of two bytes (R2, R40, R161). -/
theorem newRecord_right (s : State) (n : HostId) {p : List Byte} {a : ClaimArgs} (hargs : claimArgs p = some a) :
    (newRecord s n a).deadlineRight ∧ (newRecord s n a).spanRight := by
  obtain ⟨_, _, hlimit, _⟩ := claimArgs_eq_some hargs
  have hrange : (storedLimit a.limit).getD 0 ≤ 65535 := by
    have h2 := (p.getD 2 0#8).isLt
    have h3 := (p.getD 3 0#8).isLt
    rw [hlimit, claimLimit]
    split
    · generalize hw : 256 * (p.getD 2 0#8).toNat + (p.getD 3 0#8).toNat = w
      cases w with
      | zero => simp [storedLimit]
      | succ w => simp only [storedLimit, Option.getD_some]; omega
    · simp [storedLimit]
  have hstate : (newRecord s n a).state = .waiting := rfl
  constructor
  · refine ⟨fun _ => ?_, by simp [hstate], by simp [hstate]⟩
    simp [newRecord]
  · exact ⟨fun _ => ⟨rfl, hrange⟩, by simp [hstate], by simp [hstate], by simp [hstate]⟩

/-- A record after a move holds the deadline its state calls for, and its interval is in range where the profile's are. -/
theorem Record.Moved.right {now settle window : Nat} {r r' : Record} (h : r.Moved now settle window (some r')) :
    r'.deadlineRight ∧ (settle ≤ 255 → 1 ≤ window ∧ window ≤ 1000 → r'.spanRight) := by
  cases h with
  | granted => exact ⟨(r.granted_right now).1, fun hsettle _ => (r.granted_right now).2 hsettle⟩
  | yielded => exact ⟨(r.inYielding_right now).1, fun _ hwindow => (r.inYielding_right now).2 hwindow⟩
  | returned => exact ⟨r.inHeld_right.1, fun _ _ => r.inHeld_right.2⟩

/-- The deadline of a record after an effect (R4). -/
theorem Comes.deadlineRight {s : State} {j : SlotId} {r' : Record} (h : Comes s j r') (hs : s.deadlinesRight) :
    r'.deadlineRight := by
  cases h with
  | stood h => exact hs j r' h
  | moved r h hmoved => exact hmoved.right.1
  | settled r h _ hr' =>
    rcases hr' with rfl | rfl
    · exact r.inHeld_right.1
    · exact (r.inHeld.inYielding_right _).1
  | edited r h _ f hr' => subst hr'; exact hs j r h
  | born n p a _ hargs _ _ hr' =>
    rcases hr' with rfl | rfl
    · exact (newRecord_right s n hargs).1
    · exact (Record.granted_right _ _).1

/-- The interval of a record after an effect (R143). -/
theorem Comes.spanRight {s : State} {j : SlotId} {r' : Record} (h : Comes s j r') (hs : s.intervalsRight) : r'.spanRight := by
  obtain ⟨hsettle, hwindow, _, _, hrecords⟩ := hs
  cases h with
  | stood h => exact hrecords j r' h
  | moved r h hmoved => exact hmoved.right.2 hsettle hwindow
  | settled r h _ hr' =>
    rcases hr' with rfl | rfl
    · exact r.inHeld_right.2
    · exact (r.inHeld.inYielding_right _).2 hwindow
  | edited r h _ f hr' => subst hr'; exact hrecords j r h
  | born n p a _ hargs _ _ hr' =>
    rcases hr' with rfl | rfl
    · exact (newRecord_right s n hargs).2
    · exact (Record.granted_right _ _).2 hsettle

/-! ## Sessions -/

/-- Every effect keeps heartbeat deadlines with the ATTACHED sessions (R90). -/
theorem Effect.heartbeatsRight {c : Instr} {s t : State} (h : Effect c s t) (hs : s.heartbeatsRight) : t.heartbeatsRight := by
  intro m
  cases h.sessionMoves m with
  | stands hc => rw [hc]; exact hs m
  | resets dt _ hc => rw [hc]; simp [Session.reset]
  | begins dt p d _ _ hc => rw [hc]; simp [Session.begun]
  | beats p d hstate _ hc => rw [hc]; simp [hstate]
  | ends st hst hc => rw [hc]; simp [Session.ended, hst]

/-- Every effect keeps the periods in range (R95, R98). -/
theorem Effect.periods {c : Instr} {s t : State} (h : Effect c s t) (hs : ∀ m, (s.sessions.get m).period ≤ 1000) (m : HostId) :
    (t.sessions.get m).period ≤ 1000 := by
  cases h.sessionMoves m with
  | stands hc => rw [hc]; exact hs m
  | resets dt _ hc => rw [hc]; exact Nat.zero_le _
  | begins dt p d _ hp hc => rw [hc]; exact hp.2
  | beats p d _ hp hc => rw [hc]; exact hp.2
  | ends st _ hc => rw [hc]; exact hs m

/-- Every effect keeps the records with attached hosts (R9): a session that ends has its records freed. -/
theorem Effect.recordsAttached {c : Instr} {s t : State} (h : Effect c s t) (hs : s.recordsAttached) : t.recordsAttached := by
  intro j r' hr'
  have hbefore : (s.sessions.get r'.owner).state = .attached := by
    rcases (h.comes hr').owner with ⟨r, hr, howner, _⟩ | ⟨_, _, _, _, hstate⟩
    · exact howner ▸ hs j r hr
    · exact hstate
  cases h.sessionMoves r'.owner with
  | stands hc => rw [hc]; exact hbefore
  | resets dt _ _ hempty => rw [hempty j] at hr'; cases hr'
  | begins dt p d _ _ hc => rw [hc]; rfl
  | beats p d _ _ hc => rw [hc]; exact hbefore
  | ends st _ _ hgone =>
    rcases hgone with hgone | ⟨hstate, _⟩
    · exact absurd rfl (hgone j r' hr')
    · exact absurd hbefore hstate

/-! ## The profile's intervals -/

/-- The timing values a SET TIMING carries are in range (R147). -/
theorem timingArgs_range {p : List Byte} {a : TimingArgs} (h : timingArgs p = some a) :
    a.settle ≤ 255 ∧ (1 ≤ a.yieldWindow ∧ a.yieldWindow ≤ 1000) ∧ (1 ≤ a.voteWindow ∧ a.voteWindow ≤ 100) := by
  unfold timingArgs at h
  split at h
  · rename_i st hi lo v
    dsimp only at h
    split at h
    · rename_i hrange
      cases h
      exact ⟨Nat.le_of_lt_succ st.isLt, ⟨hrange.1, hrange.2.1⟩, hrange.2.2⟩
    · cases h
  · cases h

/-- Every effect keeps the intervals in range (R143, R147). -/
theorem Effect.intervalsRight {c : Instr} {s t : State} (h : Effect c s t) (hs : s.intervalsRight) : t.intervalsRight := by
  have hrecords : ∀ j, ∀ r' ∈ t.slots.get j, r'.spanRight := fun j r' hr' => (h.comes hr').spanRight hs
  obtain ⟨hsettle, hwindow, hvote, hperiods, _⟩ := hs
  have hprofile : t.profile.settle ≤ 255 ∧ (1 ≤ t.profile.yieldWindow ∧ t.profile.yieldWindow ≤ 1000)
      ∧ (1 ≤ t.profile.voteWindow ∧ t.profile.voteWindow ≤ 100) := by
    cases h.profileMoves with
    | stands hp => rw [hp]; exact ⟨hsettle, hwindow, hvote⟩
    | resets dt _ hp => rw [hp]; decide
    | lines _ _ hp => rw [hp]; exact ⟨hsettle, hwindow, hvote⟩
    | bonds _ _ _ hp => rw [hp]; exact ⟨hsettle, hwindow, hvote⟩
    | host _ _ _ _ hp => rw [hp]; exact ⟨hsettle, hwindow, hvote⟩
    | timing _ p a hargs hp => rw [hp]; exact timingArgs_range hargs
  obtain ⟨h1, h2, h3⟩ := hprofile
  exact ⟨h1, h2, h3, h.periods hperiods, hrecords⟩

/-! ## Every step -/

/-- R4, R9, R90: deadlines and attached owners, as the statement joins them. -/
def State.deadlinesAndOwners (s : State) : Prop := s.deadlinesRight ∧ s.heartbeatsRight ∧ s.recordsAttached

/-- A refresh sets the deadline of an ATTACHED session alone (R93). -/
theorem mayRefresh.heartbeatsRight {s t : State} (h : mayRefresh s t) (hs : s.heartbeatsRight) : t.heartbeatsRight := by
  rcases h with rfl | ⟨n, rfl⟩
  · exact hs
  · intro m
    rw [State.refresh_eq, State.putSession_sessions, Table.get_set]
    split
    · rename_i hm
      subst hm
      unfold Session.refreshed
      split
      · rename_i hstate; simp [hstate]
      · exact hs m
    · exact hs m

/-- Every step keeps deadlines and attached owners. -/
theorem step_deadlinesAndOwners {s t : State} (h : step s = .next t) (hs : s.deadlinesAndOwners) : t.deadlinesAndOwners := by
  refine step_keeps (P := State.deadlinesAndOwners) (fun _ _ h => h) (fun u v huv hu => ?_) (fun u v huv hu => ?_)
    (fun c u v huv hu => ?_) h hs
  · rw [huv]; exact hu
  · obtain ⟨hdeadlines, hheartbeats, hattached⟩ := hu
    have hslots : v.slots = u.slots := by rw [huv.frame]
    refine ⟨fun i r hr => hdeadlines i r (hslots ▸ hr), huv.heartbeatsRight hheartbeats, fun i r hr => ?_⟩
    rw [(huv.session r.owner).1]
    exact hattached i r (hslots ▸ hr)
  · obtain ⟨hdeadlines, hheartbeats, hattached⟩ := hu
    exact ⟨fun j r' hr' => (huv.comes hr').deadlineRight hdeadlines, huv.heartbeatsRight hheartbeats,
      huv.recordsAttached hattached⟩

/-- Every step keeps the intervals in range. -/
theorem step_intervalsRight {s t : State} (h : step s = .next t) (hs : s.intervalsRight) : t.intervalsRight := by
  refine step_keeps (P := State.intervalsRight) (fun _ _ h => h) (fun u v huv hu => ?_) (fun u v huv hu => ?_)
    (fun c u v huv hu => huv.intervalsRight hu) h hs
  · rw [huv]; exact hu
  · obtain ⟨h1, h2, h3, hperiods, h5⟩ := hu
    have hframe := huv.frame
    refine ⟨by rw [hframe]; exact h1, by rw [hframe]; exact h2, by rw [hframe]; exact h3, fun m => ?_, by rw [hframe]; exact h5⟩
    rw [(huv.session m).2.2.1]
    exact hperiods m

/-- Settles O58: records come from records or from claims that passed their checks, sessions end with their records freed, and what sets
an interval checks it. -/
theorem everyStepKeepsDeadlinesAndSessions : Obligations.EveryStepKeepsDeadlinesAndSessions := by
  unfold Obligations.EveryStepKeepsDeadlinesAndSessions
  intro s t hdeadlines hheartbeats hattached hstep
  obtain ⟨h1, h2, h3⟩ := step_deadlinesAndOwners hstep ⟨hdeadlines, hheartbeats, hattached⟩
  exact ⟨h1, h2, h3, step_intervalsRight hstep⟩

end Sys2Proof.Machine
end

section
/-! SUPPORT. Every step keeps the capacity law (R11) and the form of the boards (R106, R110): a record freed leaves at most one orphan
notice, and no other notice becomes an orphan. -/

namespace Sys2Proof.Machine

/-! ## Counting -/

/-- Those that pass the first of two tests no element passes both of, and those that pass the second, are no more than those that pass a
test both imply. -/
theorem countP_add_le {α : Type} {p q r : α → Bool} (hp : ∀ x, p x = true → r x = true) (hq : ∀ x, q x = true → r x = true)
    (hpq : ∀ x, p x = true → q x = false) (l : List α) : l.countP p + l.countP q ≤ l.countP r := by
  induction l with
  | nil => simp
  | cons x l ih =>
    simp only [List.countP_cons]
    cases hpx : p x with
    | true =>
      rw [hp x hpx, hpq x hpx]
      simp only [if_true, Bool.false_eq_true, if_false]
      omega
    | false =>
      cases hqx : q x with
      | true =>
        rw [hq x hqx]
        simp only [if_true, Bool.false_eq_true, if_false]
        omega
      | false =>
        simp only [Bool.false_eq_true, if_false]
        omega

/-- Distinct elements that pass a test are no more than the list they all stand in. -/
theorem countP_le_length_of_mem {α : Type} {p : α → Bool} {l w : List α} (hl : l.Nodup) (h : ∀ x ∈ l, p x = true → x ∈ w) :
    l.countP p ≤ w.length := by
  rw [List.countP_eq_length_filter]
  refine (List.subperm_of_subset (hl.filter p) fun x hx => ?_).length_le
  obtain ⟨hmem, hp⟩ := List.mem_filter.mp hx
  exact h x hmem hp

/-! ## Boards -/

/-- R106, R110, for one board: notices in ascending ticket order, the overrun set within the change set. -/
def Board.inForm (b : Board) : Prop :=
  b.notices.Pairwise (fun x y => x.1.toNat < y.1.toNat) ∧ ∀ l : LineId, has b.overrun l = true → has b.change l = true

/-- The tickets of a board's notices. -/
def Board.tickets (b : Board) : List Byte := b.notices.map fun x => x.1

/-- A board in form has one notice to a ticket (R11). -/
theorem Board.inForm.nodup {b : Board} (h : b.inForm) : b.tickets.Nodup := by
  rw [Board.tickets, List.nodup_iff_pairwise_ne, List.pairwise_map]
  exact h.1.imp fun hlt heq => by rw [heq] at hlt; exact lt_irrefl _ hlt

/-- An empty board is in form. -/
theorem Board.inForm_empty : Board.empty.inForm := ⟨List.Pairwise.nil, fun l h => by simp [Board.empty] at h⟩

/-- A post keeps the form (R107). -/
theorem Board.inForm.post {b : Board} (h : b.inForm) (t : Byte) (k : NoticeKind) : (b.post t k).inForm :=
  ⟨postNotice_ascending t k _ h.1, h.2⟩

/-- An unpost keeps the form (R8). -/
theorem Board.inForm.unpost {b : Board} (h : b.inForm) (t : Byte) : (b.unpost t).inForm :=
  ⟨h.1.sublist List.filter_sublist, h.2⟩

/-- Line flags cleared keep the form (R7). -/
theorem Board.inForm.clearLines {b : Board} (h : b.inForm) (w : LineSet) : (b.clearLines w).inForm := by
  refine ⟨h.1, fun l hl => ?_⟩
  simp only [Board.clearLines, has_and, Bool.and_eq_true] at hl ⊢
  exact ⟨h.2 l hl.1, hl.2⟩

/-- A watch stopped keeps the form (R85). -/
theorem Board.inForm.unwatch {b : Board} (h : b.inForm) (w : LineSet) : (b.unwatch w).inForm := by
  refine ⟨h.1, fun l hl => ?_⟩
  simp only [Board.unwatch, has_and, Bool.and_eq_true] at hl ⊢
  exact ⟨h.2 l hl.1, hl.2⟩

/-- A sample keeps the form: an edge overruns only where a change stands (R77). -/
theorem Board.inForm.sampled {b : Board} (h : b.inForm) (edges parks : LineSet) : (b.sampled edges parks).inForm := by
  refine ⟨h.1, fun l hl => ?_⟩
  simp only [Board.sampled, has_or, has_and, Bool.or_eq_true, Bool.and_eq_true] at hl ⊢
  rcases hl with hl | ⟨hedge, _⟩
  · exact .inl (h.2 l hl)
  · exact .inr hedge

/-- A fetch keeps the form (R117). -/
theorem Board.inForm.fetched {b : Board} (h : b.inForm) : b.fetched.inForm :=
  ⟨h.1.sublist (List.drop_sublist _ _), fun l hl => by simp [Board.fetched, Board.empty] at hl⟩

/-- A move keeps the form of the owner's board (R7, R8). -/
theorem Board.MovedBy.inForm {cause : FreeCause} {settle : Nat} {r : Record} {b b' : Board} {x : Option Record}
    (h : b.MovedBy cause settle r x b') (hb : b.inForm) : b'.inForm := by
  cases h with
  | freed =>
    have hcleared := hb.clearLines r.lineSet
    cases cause with
    | released => exact hcleared.unpost _
    | waitExpired | denied | revoked => exact hcleared.post _ _
    | sessionEnd | clearAll => exact hcleared
  | silent => exact hb
  | posted r' k => exact hb.post _ _

/-- The tickets after a move are the tickets before it, and perhaps the record's (R8, R35, R53, R56). -/
theorem Board.MovedBy.tickets {cause : FreeCause} {settle : Nat} {r : Record} {b b' : Board} {x : Option Record}
    (h : b.MovedBy cause settle r x b') {tk : Byte} (htk : tk ∈ b'.tickets) : tk ∈ b.tickets ∨ tk = r.ticket := by
  have hpost {c : Board} {k : NoticeKind} (hc : c.notices = b.notices) (h : tk ∈ (c.post r.ticket k).tickets) :
      tk ∈ b.tickets ∨ tk = r.ticket := by
    rcases (mem_tickets_postNotice _ _ _ _).mp h with h | h
    · exact .inr h
    · exact .inl (by rwa [hc] at h)
  cases h with
  | freed =>
    cases cause with
    | released =>
      obtain ⟨y, hy, rfl⟩ := List.mem_map.mp htk
      exact .inl (List.mem_map.mpr ⟨y, List.mem_of_mem_filter hy, rfl⟩)
    | waitExpired | denied | revoked => exact hpost rfl htk
    | sessionEnd | clearAll => exact .inl htk
  | silent => exact .inl htk
  | posted r' k => exact hpost rfl htk

/-- A board's form is in its entries alone. -/
theorem Board.inForm.of_entries {b b' : Board} (h : b.inForm)
    (heq : b'.notices = b.notices ∧ b'.change = b.change ∧ b'.overrun = b.overrun) : b'.inForm := by
  obtain ⟨hn, hc, ho⟩ := heq
  exact ⟨hn ▸ h.1, by rw [hc, ho]; exact h.2⟩

/-! ## Orphan notices -/

/-- A host's orphan notices are the tickets of its board it has no record under (R11). -/
theorem State.orphansOf_eq (s : State) (n : HostId) :
    s.orphansOf n = (s.boards.get n).tickets.countP fun tk => (findTicket s.slots n tk).isNone := by
  rw [← State.orphanCount_eq, orphanCount, Board.tickets, List.countP_map]
  rfl

/-- Orphan notices are no more where each was one. -/
theorem State.orphansOf_le {s t : State} {n : HostId} (hnodup : (t.boards.get n).tickets.Nodup)
    (h : ∀ tk ∈ (t.boards.get n).tickets, t.ownsNone n tk → tk ∈ (s.boards.get n).tickets ∧ s.ownsNone n tk) :
    t.orphansOf n ≤ s.orphansOf n := by
  rw [State.orphansOf_eq, State.orphansOf_eq, List.countP_eq_length_filter (l := (s.boards.get n).tickets)]
  refine countP_le_length_of_mem hnodup fun tk htk hp => ?_
  obtain ⟨hmem, hnone⟩ := h tk htk ((findTicket_none _ _ _).mp (Option.isNone_iff_eq_none.mp hp))
  exact List.mem_filter.mpr ⟨hmem, Option.isNone_iff_eq_none.mpr ((findTicket_none _ _ _).mpr hnone)⟩

/-- Orphan notices are one more at most where each was one but for one ticket. -/
theorem State.orphansOf_le_succ {s t : State} {n : HostId} (hnodup : (t.boards.get n).tickets.Nodup) (new : Byte)
    (h : ∀ tk ∈ (t.boards.get n).tickets, t.ownsNone n tk → tk ≠ new → tk ∈ (s.boards.get n).tickets ∧ s.ownsNone n tk) :
    t.orphansOf n ≤ s.orphansOf n + 1 := by
  rw [State.orphansOf_eq, State.orphansOf_eq, List.countP_eq_length_filter (l := (s.boards.get n).tickets)]
  refine countP_le_length_of_mem (w := new :: List.filter _ _) hnodup fun tk htk hp => ?_
  by_cases hnew : tk = new
  · subst hnew; exact List.mem_cons_self
  · obtain ⟨hmem, hnone⟩ := h tk htk ((findTicket_none _ _ _).mp (Option.isNone_iff_eq_none.mp hp)) hnew
    refine List.mem_cons_of_mem _ (List.mem_filter.mpr ⟨hmem, ?_⟩)
    exact Option.isNone_iff_eq_none.mpr ((findTicket_none _ _ _).mpr hnone)

/-! ## The law -/

/-- R11, R106, R110: the capacity law and the form of the boards. -/
def State.capacityRight (s : State) : Prop := s.boardsInForm ∧ s.capacityKept

/-- Each record of `t` has the owner and the ticket of the record of `s` in its slot. -/
def ownedBefore (s t : State) : Prop :=
  ∀ j r', t.slots.get j = some r' → ∃ r, s.slots.get j = some r ∧ r.owner = r'.owner ∧ r.ticket = r'.ticket

/-- The law carries over to boards in form, where no record is new, and records and orphan notices are no more (R11). -/
theorem State.capacityRight.of_le {s t : State} (hs : s.capacityRight) (howned : ownedBefore s t)
    (hform : ∀ m, (t.boards.get m).inForm)
    (hle : ∀ m, t.countOf m + t.orphansOf m ≤ s.countOf m + s.orphansOf m) : t.capacityRight := by
  obtain ⟨_, hdistinct, hcap⟩ := hs
  refine ⟨hform, fun i r hr j w hw howner hticket => ?_, fun m => ⟨(hform m).nodup, ?_⟩⟩
  · obtain ⟨r0, hr0, hro, hrt⟩ := howned i r hr
    obtain ⟨w0, hw0, hwo, hwt⟩ := howned j w hw
    exact hdistinct i r0 hr0 j w0 hw0 (hro.trans (howner.trans hwo.symm)) (hrt.trans (hticket.trans hwt.symm))
  · exact (hle m).trans (hcap m).2

/-- Every record keeps owner and ticket from `s` to `t`. -/
def sameOwners (s t : State) : Prop :=
  ∀ j, (t.slots.get j).map (fun r => (r.owner, r.ticket)) = (s.slots.get j).map fun r => (r.owner, r.ticket)

/-- The table as it was has the same owners. -/
theorem sameOwners.of_slots {s t : State} (h : t.slots = s.slots) : sameOwners s t := fun j => by rw [h]

/-- Records with the same owners were owned before. -/
theorem sameOwners.ownedBefore {s t : State} (h : sameOwners s t) : ownedBefore s t := by
  intro j r' hr'
  have hj := h j
  rw [hr', Option.map_some] at hj
  obtain ⟨r, hr, heq⟩ := Option.map_eq_some_iff.mp hj.symm
  exact ⟨r, hr, congrArg Prod.fst heq, congrArg Prod.snd heq⟩

/-- The same owners, seen from the other side. -/
theorem sameOwners.symm {s t : State} (h : sameOwners s t) : sameOwners t s := fun j => (h j).symm

/-- The same owners have the same tickets free. -/
theorem sameOwners.ownsNone {s t : State} (h : sameOwners s t) {n : HostId} {tk : Byte} (hnone : t.ownsNone n tk) :
    s.ownsNone n tk := by
  intro j w hw howner hticket
  obtain ⟨w', hw', ho, ht⟩ := h.symm.ownedBefore j w hw
  exact hnone j w' hw' (ho.trans howner) (ht.trans hticket)

/-- The law carries over where owners stand and every new ticket on a board is that of a record there (R11, R107). -/
theorem State.capacityRight.of_sameOwners {s t : State} (hs : s.capacityRight) (hsame : sameOwners s t)
    (hform : ∀ m, (t.boards.get m).inForm)
    (htickets : ∀ m, ∀ tk ∈ (t.boards.get m).tickets, tk ∈ (s.boards.get m).tickets ∨ ¬ t.ownsNone m tk) :
    t.capacityRight := by
  refine hs.of_le hsame.ownedBefore hform fun m => Nat.add_le_add (State.countOf_mono fun j r' hr' howner => ?_) ?_
  · obtain ⟨r, hr, ho, _⟩ := hsame.ownedBefore j r' hr'
    exact ⟨r, hr, ho.trans howner⟩
  · refine State.orphansOf_le (hform m).nodup fun tk htk hnone => ⟨?_, hsame.ownsNone hnone⟩
    exact (htickets m tk htk).resolve_right fun hno => hno hnone

/-- The law carries over where the table stands and no board gains a ticket. -/
theorem State.capacityRight.of_slots {s t : State} (hs : s.capacityRight) (hslots : t.slots = s.slots)
    (hform : ∀ m, (t.boards.get m).inForm) (htickets : ∀ m, ∀ tk ∈ (t.boards.get m).tickets, tk ∈ (s.boards.get m).tickets) :
    t.capacityRight :=
  hs.of_sameOwners (.of_slots hslots) hform fun m tk htk => .inl (htickets m tk htk)

/-- The law is read off the table and the entries of the boards. -/
theorem State.capacityRight.of_boards {s t : State} (hs : s.capacityRight) (hslots : t.slots = s.slots)
    (hboards : ∀ m, (t.boards.get m).notices = (s.boards.get m).notices ∧ (t.boards.get m).change = (s.boards.get m).change
      ∧ (t.boards.get m).overrun = (s.boards.get m).overrun) : t.capacityRight :=
  hs.of_slots hslots (fun m => Board.inForm.of_entries (hs.1 m) (hboards m)) fun m tk htk => by
    rwa [Board.tickets, (hboards m).1] at htk

/-- The law holds where an edit of one board keeps its form and gives it no ticket. -/
theorem State.capacityRight.editBoard {s t : State} (hs : s.capacityRight) (hslots : t.slots = s.slots) {n : HostId} {f : Board → Board}
    (hboards : t.boards = (s.editBoard n f).boards) (hform : (s.boards.get n).inForm → (f (s.boards.get n)).inForm)
    (htickets : ∀ tk ∈ (f (s.boards.get n)).tickets, tk ∈ (s.boards.get n).tickets) : t.capacityRight := by
  have hself : t.boards.get n = { f (s.boards.get n) with attn := !(f (s.boards.get n)).isEmpty } := by
    rw [hboards, State.editBoard_boards, Table.get_set_self]
  have hne {m : HostId} (hm : m ≠ n) : t.boards.get m = s.boards.get m := by
    rw [hboards, State.editBoard_boards, Table.get_set_ne _ _ hm]
  refine hs.of_slots hslots (fun m => ?_) fun m tk htk => ?_
  · by_cases hm : m = n
    · subst hm; exact Board.inForm.of_entries (hform (hs.1 m)) (by rw [hself]; exact ⟨rfl, rfl, rfl⟩)
    · rw [hne hm]; exact hs.1 m
  · by_cases hm : m = n
    · subst hm; exact htickets tk (by rwa [hself] at htk)
    · rwa [hne hm] at htk

/-! ## Moves -/

/-- A move keeps the form of every board. -/
theorem Moves.inForm {cause : FreeCause} {s t : State} {i : SlotId} {r : Record} (h : Moves cause s i r t)
    (hrec : s.slots.get i = some r) (hs : s.boardsInForm) (m : HostId) : (t.boards.get m).inForm := by
  by_cases hm : m = r.owner
  · subst hm
    obtain ⟨b, hb, hnotices, hchange, hoverrun, _⟩ := h.ownerBoard hrec
    exact (hb.inForm (hs _)).of_entries ⟨hnotices, hchange, hoverrun⟩
  · rw [(h.boards hrec).2 m hm]
    exact hs m

/-- The tickets of a board after a move. -/
theorem Moves.tickets {cause : FreeCause} {s t : State} {i : SlotId} {r : Record} (h : Moves cause s i r t)
    (hrec : s.slots.get i = some r) {m : HostId} {tk : Byte} (htk : tk ∈ (t.boards.get m).tickets) :
    tk ∈ (s.boards.get m).tickets ∨ (m = r.owner ∧ tk = r.ticket) := by
  by_cases hm : m = r.owner
  · subst hm
    obtain ⟨b, hb, hnotices, _⟩ := h.ownerBoard hrec
    rw [Board.tickets, hnotices] at htk
    exact (hb.tickets htk).imp_right fun h => ⟨rfl, h⟩
  · rw [(h.boards hrec).2 m hm] at htk
    exact .inl htk

/-- A move keeps the capacity law: a record freed makes room for its notice (R8, R11). -/
theorem State.capacityRight.moves {cause : FreeCause} {s t : State} {i : SlotId} {r : Record} (hs : s.capacityRight)
    (hrec : s.slots.get i = some r) (h : Moves cause s i r t) : t.capacityRight := by
  obtain ⟨hself, hne⟩ := h.slots
  cases hslot : t.slots.get i with
  | some r' =>
    rw [hslot] at hself
    obtain ⟨howner, hticket, _⟩ := hself.keeps
    refine hs.of_sameOwners (fun j => ?_) (h.inForm hrec hs.1) fun m tk htk => (h.tickets hrec htk).imp_right ?_
    · by_cases hj : j = i
      · subst hj; rw [hslot, hrec, Option.map_some, Option.map_some, howner, hticket]
      · rw [hne j hj]
    · rintro ⟨rfl, rfl⟩ hnone
      exact hnone i r' hslot howner hticket
  | none =>
    have howned : ownedBefore s t := fun j r' hr' => by
      have hj : j ≠ i := fun heq => by rw [heq, hslot] at hr'; cases hr'
      exact ⟨r', (hne j hj) ▸ hr', rfl, rfl⟩
    have hownsNone {m : HostId} {tk : Byte} (hmine : m = r.owner → tk ≠ r.ticket) (hnone : t.ownsNone m tk) :
        s.ownsNone m tk := fun j w hw ho ht => by
      by_cases hj : j = i
      · subst hj
        obtain rfl := Option.some.inj (hrec.symm.trans hw)
        exact hmine ho.symm ht.symm
      · exact hnone j w ((hne j hj).trans hw) ho ht
    refine hs.of_le howned (h.inForm hrec hs.1) fun m => ?_
    by_cases hm : m = r.owner
    · subst hm
      have hcount : t.countOf r.owner + 1 ≤ s.countOf r.owner := by
        have hone : (List.finRange 32).countP (fun j => j == i) = 1 :=
          List.count_eq_one_of_mem (List.nodup_finRange 32) (List.mem_finRange i)
        rw [← hone]
        refine countP_add_le (fun j hj => ?_) (fun j hj => ?_) (fun j hj => ?_) _
        · cases hr' : t.slots.get j with
          | none => simp [hr'] at hj
          | some r' =>
            obtain ⟨w, hw, ho, _⟩ := howned j r' hr'
            simpa [hw, ho, hr'] using hj
        · obtain rfl : j = i := by simpa using hj
          simp [hrec]
        · by_contra hji
          obtain rfl : j = i := by simpa using hji
          simp [hslot] at hj
      have horphans := State.orphansOf_le_succ (s := s) (h.inForm hrec hs.1 r.owner).nodup r.ticket fun tk htk hnone hne =>
        ⟨(h.tickets hrec htk).resolve_right fun ⟨_, heq⟩ => hne heq, hownsNone (fun _ => hne) hnone⟩
      omega
    · refine Nat.add_le_add (State.countOf_mono fun j r' hr' ho => ?_) ?_
      · obtain ⟨w, hw, hwo, _⟩ := howned j r' hr'
        exact ⟨w, hw, hwo.trans ho⟩
      · refine State.orphansOf_le (h.inForm hrec hs.1 m).nodup fun tk htk hnone => ?_
        exact ⟨(h.tickets hrec htk).resolve_right fun ⟨heq, _⟩ => hm heq, hownsNone (fun heq => absurd heq hm) hnone⟩

/-- A board cleared has no notice left (R113). -/
theorem State.capacityRight.clearBoard {s : State} (hs : s.capacityRight) (n : HostId) : (s.clearBoard n).capacityRight :=
  hs.editBoard (f := fun _ => Board.empty) rfl rfl (fun _ => Board.inForm_empty) fun _ htk => absurd htk List.not_mem_nil

/-- Every elementary change keeps the capacity law. -/
theorem Change.capacityRight {s t : State} (h : Change s t) (hs : s.capacityRight) : t.capacityRight := by
  cases h with
  | votes hside =>
    obtain ⟨_, _, hslots, _⟩ := hside.kept
    exact hs.of_boards hslots fun m => ⟨(hside.board m).1, (hside.board m).2.1, (hside.board m).2.2.1⟩
  | session n c => exact hs
  | clears n => exact hs.clearBoard n
  | profile p => exact hs
  | elects el => exact hs
  | moves hrec hmove => exact hs.moves hrec hmove

/-- Every chain of elementary changes keeps the capacity law. -/
theorem Changes.capacityRight {s t : State} (h : Changes s t) (hs : s.capacityRight) : t.capacityRight :=
  h.keeps (fun _ _ => Change.capacityRight) hs

/-! ## New records and the other effects -/

/-- A record put in a FREE slot keeps the capacity law where the checks of CLAIM pass (R11, R19). -/
theorem State.capacityRight.born {s t : State} (hs : s.capacityRight) {i : SlotId} {r : Record} {a : ClaimArgs}
    (hpasses : s.passes r.owner a) (hticket : r.ticket = a.ticket) (hslots : t.slots = s.slots.set i (some r))
    (hboards : t.boards = s.boards) (hempty : s.slots.get i = none) : t.capacityRight := by
  obtain ⟨_, _, hfree, _, hroom, _⟩ := hpasses
  have hunowned : s.ownsNone r.owner r.ticket := by
    by_contra hno
    exact hfree (hticket ▸ .inl hno)
  obtain ⟨hform, hdistinct, hcap⟩ := hs
  have hcase {j : SlotId} {w : Record} (hw : t.slots.get j = some w) : (j = i ∧ w = r) ∨ (j ≠ i ∧ s.slots.get j = some w) := by
    rw [hslots, Table.get_set] at hw
    split at hw
    · rename_i hj; exact .inl ⟨hj, (Option.some.inj hw).symm⟩
    · rename_i hj; exact .inr ⟨hj, hw⟩
  refine ⟨fun m => hboards ▸ hform m, fun j w hw k v hv howner hticket' => ?_, fun m => ⟨hboards ▸ (hcap m).1, ?_⟩⟩
  · rcases hcase hw with ⟨rfl, rfl⟩ | ⟨_, hw⟩ <;> rcases hcase hv with ⟨rfl, rfl⟩ | ⟨_, hv⟩
    · rfl
    · exact absurd hticket'.symm (hunowned k v hv howner.symm)
    · exact absurd hticket' (hunowned j w hw howner)
    · exact hdistinct j w hw k v hv howner hticket'
  · have hcount : t.countOf m ≤ s.countOf m + if m = r.owner then 1 else 0 := by
      split
      · refine State.countOf_le i fun j w hw ho hj => ?_
        rcases hcase hw with ⟨heq, _⟩ | ⟨_, hw⟩
        · exact absurd heq hj
        · exact ⟨w, hw, ho⟩
      · rename_i hm
        refine State.countOf_mono fun j w hw ho => ?_
        rcases hcase hw with ⟨_, rfl⟩ | ⟨_, hw⟩
        · exact absurd ho.symm hm
        · exact ⟨w, hw, ho⟩
    have horphans : t.orphansOf m ≤ s.orphansOf m := by
      refine State.orphansOf_le (by rw [hboards]; exact Board.inForm.nodup (hform m)) fun tk htk howned => ?_
      refine ⟨hboards ▸ htk, fun j w hw => ?_⟩
      have hj : j ≠ i := fun heq => by rw [heq, hempty] at hw; cases hw
      exact howned j w (by rw [hslots, Table.get_set_ne _ _ hj]; exact hw)
    have hbefore := (hcap m).2
    split at hcount
    · rename_i hm
      subst hm
      omega
    · omega

/-- The record a settle end brings to HELD keeps the capacity law. -/
theorem State.capacityRight.enterHeld {s : State} (hs : s.capacityRight) {i : SlotId} {r : Record}
    (hrec : s.slots.get i = some r) : (s.enterHeld i r).capacityRight := by
  refine hs.of_sameOwners (fun j => ?_) (fun m => hs.1 m) fun m tk htk => .inl htk
  rw [show (s.enterHeld i r).slots = s.slots.set i (some r.asHeld) from rfl, Table.get_set]
  split
  · rename_i hj; subst hj; rw [hrec]; rfl
  · rfl

/-- A notice posted for a record there keeps the capacity law (R107). -/
theorem State.capacityRight.post {s : State} (hs : s.capacityRight) {i : SlotId} {r : Record}
    (hrec : s.slots.get i = some r) (k : NoticeKind) : (s.post r.owner r.ticket k).capacityRight := by
  have hboard (m : HostId) : (s.post r.owner r.ticket k).boards.get m =
      if m = r.owner then
        { (s.boards.get m).post r.ticket k with attn := !((s.boards.get m).post r.ticket k).isEmpty }
      else s.boards.get m := by
    rw [State.post_boards, Table.get_set]
    split
    · rename_i hm; subst hm; rfl
    · rfl
  refine hs.of_sameOwners (.of_slots rfl) (fun m => ?_) fun m tk htk => ?_
  · rw [hboard]
    split
    · exact Board.inForm.of_entries (Board.inForm.post (hs.1 m) r.ticket k) ⟨rfl, rfl, rfl⟩
    · exact hs.1 m
  · rw [hboard] at htk
    split at htk
    · rename_i hm
      subst hm
      rcases (mem_tickets_postNotice _ _ _ _).mp htk with rfl | h
      · exact .inr fun hnone => hnone i r hrec rfl rfl
      · exact .inl h
    · exact .inl htk

/-- A settle end keeps the capacity law (R45, R54). -/
theorem State.capacityRight.settleEnd {s : State} (hs : s.capacityRight) {i : SlotId} {r : Record}
    (hrec : s.slots.get i = some r) : (s.settleEnd i r).capacityRight := by
  have hslot : (s.enterHeld i r).slots.get i = some r.asHeld := by
    rw [show (s.enterHeld i r).slots = s.slots.set i (some r.asHeld) from rfl, Table.get_set_self]
  unfold State.settleEnd
  split
  · exact (hs.enterHeld hrec).moves (cause := .released) hslot (.yielded rfl)
  · obtain ⟨m, hrun⟩ := ((s.enterHeld i r).post r.owner r.ticket .granted).eligibility_run_self .released
    exact hrun.changes.capacityRight ((hs.enterHeld hrec).post (r := r.asHeld) hslot .granted)

/-- New settings keep the capacity law (R84, R85). -/
theorem State.capacityRight.resettle {s : State} (hs : s.capacityRight) {i : SlotId} {r : Record}
    (hrec : s.slots.get i = some r) (named : Nat → Bool) (f : Nat → Setting → Setting) :
    (s.resettle i r named f).capacityRight := by
  refine hs.of_sameOwners (fun j => ?_) (fun m => hs.1 m) fun m tk htk => .inl htk
  rw [show (s.resettle i r named f).slots = s.slots.set i (some { r with lines := editEntries f r.lines }) from rfl, Table.get_set]
  split
  · rename_i hj; subst hj; rw [hrec]; rfl
  · rfl

/-- A host's board with the edges and parks of a sampling tick noted (R77, R80). -/
def State.sampledBoard (s : State) (levels : LineSet) (m : HostId) : Board :=
  (s.boards.get m).sampled (ownLines s m fun l c => c.edge (has levels l))
    (ownLines s m fun l c => c.faults (has levels l) s.tickTime)

/-- A host's board after a sampling tick (R75, R77, R80). -/
theorem State.tick_board (s : State) (levels : LineSet) (m : HostId) :
    (s.tick levels).boards.get m = { s.sampledBoard levels m with attn := !(s.sampledBoard levels m).isEmpty } := by
  have hfold (f : HostId → Board → Board) (l : List HostId) (hl : l.Nodup) (u : State) :
      (l.foldl (fun t h => t.editBoard h (f h)) u).boards.get m =
        if m ∈ l then { f m (u.boards.get m) with attn := !(f m (u.boards.get m)).isEmpty } else u.boards.get m := by
    induction l generalizing u with
    | nil => simp
    | cons h l ih =>
      obtain ⟨hh, hl⟩ := List.nodup_cons.mp hl
      rw [List.foldl_cons, ih hl, State.editBoard_boards, Table.get_set]
      by_cases hm : m = h
      · subst hm; simp [hh]
      · simp [hm]
  rw [State.tick_boards]
  exact (hfold (fun h b => b.sampled (ownLines s h fun l c => c.edge (has levels l))
    (ownLines s h fun l c => c.faults (has levels l) s.tickTime)) _ (List.nodup_finRange 4) s).trans
    (if_pos (List.mem_finRange m))

/-- A sampling tick leaves the table and every notice (R75). -/
theorem State.capacityRight.tick {s : State} (hs : s.capacityRight) (levels : LineSet) : (s.tick levels).capacityRight := by
  refine hs.of_slots (by rw [State.tick_frame]) (fun m => ?_) fun m tk htk => ?_
  · rw [State.tick_board]
    exact Board.inForm.of_entries (b := s.sampledBoard levels m) (Board.inForm.sampled (hs.1 m) _ _) ⟨rfl, rfl, rfl⟩
  · rw [State.tick_board] at htk
    exact htk

/-- Every effect keeps the capacity law. -/
theorem Effect.capacityRight {c : Instr} {s t : State} (h : Effect c s t) (hs : s.capacityRight) : t.capacityRight := by
  cases h with
  | stands | rises | beats | unparks | bonds | editsHost | times | commits | unblanks => exact hs
  | falls dt _ _ h =>
    obtain rfl := Host.Outcome.next.inj h
    refine ⟨fun m => by rw [Table.get_fill]; exact Board.inForm_empty, fun i r hr => ?_, fun m => ?_⟩
    · simp at hr
    · refine ⟨by simp [Board.empty], ?_⟩
      simp [State.orphansOf, Board.empty, State.countOf]
  | begins dt n p => exact (Changes.beginSession s n p).capacityRight hs
  | restarts dt n p => exact (Changes.restartSession s n p).capacityRight hs
  | detaches dt n => exact (Changes.detachAttached s n).capacityRight hs
  | closes dt n => exact (Changes.detachLapsed s n).capacityRight hs
  | lapses n => exact (Changes.lapse s n).capacityRight hs
  | clears dt n => exact (Changes.clearAll s n).capacityRight hs
  | releases | revokes | expires => exact (Changes.freeAll s _ _).capacityRight hs
  | votes dt n => exact (Change.votes (.reopenVote s n)).capacityRight hs
  | failsVote => exact (Change.votes (.failVote s _)).capacityRight hs
  | claims dt n p a i _ hr hstate hargs hchecks hfree hgrant =>
    obtain ⟨m, hrun⟩ := (s.grantInto i (newRecord s n a)).eligibility_run_self .released
    obtain ⟨howner, hticket⟩ := newRecord_owner (s := s) (n := n) (a := a) (settle := s.profile.settle) (.inr rfl)
    refine hrun.changes.capacityRight (hs.born (howner.symm ▸ (claimRefusal_eq_none s n a).mp hchecks) hticket
      (s.grantInto_slots i _) (s.grantInto_boards i _) ((freeSlot_eq_some s i).mp hfree).1)
  | queues dt n p a i _ hr hstate hargs hchecks hfree hwait =>
    obtain ⟨m, hrun⟩ := (s.putRecord i (newRecord s n a)).evaluate_run_self .released
    exact hrun.changes.capacityRight (hs.born (r := newRecord s n a) ((claimRefusal_eq_none s n a).mp hchecks) rfl rfl rfl
      ((freeSlot_eq_some s i).mp hfree).1)
  | settles i r _ hrec => exact hs.settleEnd hrec
  | levels dt i r a _ hrec => exact hs.resettle hrec _ _
  | reconfigures dt i r named _ hrec =>
    exact (hs.resettle hrec _ _).editBoard rfl rfl (fun h => h.unwatch _) fun _ htk => htk
  | fetches dt n =>
    refine hs.editBoard rfl rfl (fun h => h.fetched) fun tk htk => ?_
    obtain ⟨x, hx, rfl⟩ := List.mem_map.mp htk
    exact List.mem_map.mpr ⟨x, List.mem_of_mem_drop hx, rfl⟩
  | editsLines dt es =>
    unfold State.applyLineProfile
    dsimp only
    split
    · exact hs
    · exact (Changes.freeAll ((s.storeLines es).tellRest es) _ _).capacityRight hs
  | samples levels => exact hs.tick levels

/-- Settles O54: each elementary change of table and boards keeps the law, and the checks of CLAIM leave it room. -/
theorem everyStepKeepsCapacity : Obligations.EveryStepKeepsCapacity := by
  unfold Obligations.EveryStepKeepsCapacity
  intro s t hform hcap hstep
  exact step_keeps (P := State.capacityRight) (fun _ _ h => h) (fun _ _ h hs => by rw [h]; exact hs)
    (fun _ _ h hs => by rw [h.frame]; exact hs) (fun _ _ _ h hs => h.capacityRight hs) hstep ⟨hform, hcap⟩

end Sys2Proof.Machine
end

section
/-! SUPPORT. Every step keeps table and cells in agreement (R30, R69), and line flags for held lines alone (R111). Each operation is an
update of one slot and of the cells of the lines its record holds. -/

namespace Sys2Proof.Machine

/-! ## The invariant, slot by slot and line by line -/

/-- R69, for the record `r` of slot `i`: it names each line once, and its cells know it while it is live. -/
def State.recordFollowed (s : State) (i : SlotId) (r : Record) : Prop :=
  (r.lines.map fun e => e.line).Nodup ∧ s.resetn = true
    ∧ (r.state ≠ .waiting → ∀ e ∈ r.lines,
        (s.cells.get e.line).holder = some { slot := i, owner := r.owner, ticket := r.ticket, state := r.state }
          ∧ (r.state ≠ .settling → (s.cells.get e.line).applied = some e.setting))

/-- R69, for line `l`: the holder its cell knows is a live record that names it, and without a HELD or YIELDING one it keeps neither
setting nor park. -/
def State.cellFollows (s : State) (l : LineId) : Prop :=
  (∀ x ∈ (s.cells.get l).holder, ∃ r ∈ s.slots.get x.slot, r.state ≠ .waiting ∧ r.names l = true)
    ∧ ((∃ x ∈ (s.cells.get l).holder, x.state = .held ∨ x.state = .yielding)
        ∨ ((s.cells.get l).applied = none ∧ (s.cells.get l).parked = false))

/-- The invariant is that of each record and of each line. -/
theorem State.cellsFollow_iff (s : State) :
    s.cellsFollow ↔ (∀ i, ∀ r ∈ s.slots.get i, s.recordFollowed i r) ∧ ∀ l, s.cellFollows l := Iff.rfl

/-- The cell of a line that a live record names knows the record. -/
theorem State.cellsFollow.holder {s : State} (h : s.cellsFollow) {i : SlotId} {r : Record} (hr : s.slots.get i = some r)
    (hlive : r.state ≠ .waiting) {l : LineId} (hl : r.names l = true) :
    (s.cells.get l).holder = some { slot := i, owner := r.owner, ticket := r.ticket, state := r.state } := by
  obtain ⟨e, he, rfl⟩ := (r.names_iff l).mp hl
  exact ((h.1 i r hr).2.2 hlive e he).1

/-- A cell that no live record holds has no holder. -/
theorem State.cellsFollow.holder_none {s : State} (h : s.cellsFollow) {l : LineId} (hidle : ¬ s.lineHeld l) :
    (s.cells.get l).holder = none ∧ (s.cells.get l).applied = none ∧ (s.cells.get l).parked = false := by
  obtain ⟨hholder, hclaim⟩ := h.2 l
  have hnone : (s.cells.get l).holder = none := by
    cases hx : (s.cells.get l).holder with
    | none => rfl
    | some x =>
      obtain ⟨r, hr, hlive, hl⟩ := hholder x hx
      exact absurd ⟨x.slot, r, hr, hlive, hl⟩ hidle
  refine ⟨hnone, hclaim.resolve_left ?_⟩
  rintro ⟨x, hx, _⟩
  rw [hnone] at hx
  cases hx

/-- Each line has one holder (R30). -/
theorem State.cellsFollow.oneHolder {s : State} (h : s.cellsFollow) : s.oneHolder := by
  rintro i r hr j w hw hrlive hwlive ⟨l, hrl, hwl⟩
  have heq := (h.holder hr hrlive hrl).symm.trans (h.holder hw hwlive hwl)
  exact congrArg Holder.slot (Option.some.inj heq)

/-- An update of slot `i` and of the cells of lines no other live record names keeps the agreement, where it keeps it there. -/
theorem State.cellsFollow.update {s t : State} (hs : s.cellsFollow) {i : SlotId} {touched : LineId → Prop}
    (hslots : ∀ j, j ≠ i → t.slots.get j = s.slots.get j) (hresetn : t.resetn = s.resetn)
    (hcells : ∀ l, ¬ touched l → (t.cells.get l).holder = (s.cells.get l).holder
      ∧ (t.cells.get l).applied = (s.cells.get l).applied ∧ ((s.cells.get l).parked = false → (t.cells.get l).parked = false))
    (halone : ∀ l, touched l → ∀ j, j ≠ i → ∀ w, s.slots.get j = some w → w.state ≠ .waiting → w.names l = false)
    (hself : ∀ r', t.slots.get i = some r' → t.recordFollowed i r')
    (hline : ∀ l, touched l → t.cellFollows l)
    (hkept : ∀ l, ¬ touched l → ∀ r, s.slots.get i = some r → r.state ≠ .waiting → r.names l = true →
      ∃ r', t.slots.get i = some r' ∧ r'.state ≠ .waiting ∧ r'.names l = true) : t.cellsFollow := by
  refine (State.cellsFollow_iff t).mpr ⟨fun j r' hr' => ?_, fun l => ?_⟩
  · by_cases hj : j = i
    · subst hj; exact hself r' hr'
    · have hr := (hslots j hj).symm.trans hr'
      obtain ⟨hnodup, hr1, hknown⟩ := hs.1 j r' hr
      refine ⟨hnodup, hresetn.trans hr1, fun hlive e he => ?_⟩
      have hnames : r'.names e.line = true := (r'.names_iff _).mpr ⟨e, he, rfl⟩
      have huntouched : ¬ touched e.line := fun htouched => by
        rw [halone _ htouched j hj r' hr hlive] at hnames
        cases hnames
      obtain ⟨hholder, happlied, _⟩ := hcells _ huntouched
      rw [hholder, happlied]
      exact hknown hlive e he
  · by_cases htouched : touched l
    · exact hline l htouched
    · obtain ⟨hholder, happlied, hparked⟩ := hcells l htouched
      obtain ⟨hbefore, hclaim⟩ := hs.2 l
      unfold State.cellFollows
      rw [hholder, happlied]
      refine ⟨fun x hx => ?_, hclaim.imp_right fun ⟨hnone, hunparked⟩ => ⟨hnone, hparked hunparked⟩⟩
      obtain ⟨r, hr, hlive, hl⟩ := hbefore x hx
      by_cases hxi : x.slot = i
      · rw [hxi] at hr ⊢
        exact hkept l htouched r hr hlive hl
      · exact ⟨r, (hslots _ hxi).trans hr, hlive, hl⟩

/-- Cells with the holders, settings and parks they had, under the table as it was, agree with it. -/
theorem State.cellsFollow.of_cells {s t : State} (hs : s.cellsFollow) (hslots : t.slots = s.slots) (hresetn : t.resetn = s.resetn)
    (hcells : ∀ l, (t.cells.get l).holder = (s.cells.get l).holder ∧ (t.cells.get l).applied = (s.cells.get l).applied
      ∧ ((s.cells.get l).parked = false → (t.cells.get l).parked = false)) : t.cellsFollow := by
  refine hs.update (i := 0) (touched := fun _ => False) (fun j _ => by rw [hslots]) hresetn (fun l _ => hcells l)
    (fun _ h => h.elim) (fun r' hr' => ?_) (fun _ h => h.elim) fun l _ r hr hlive hl => ⟨r, by rw [hslots]; exact hr, hlive, hl⟩
  obtain ⟨hnodup, hr1, hknown⟩ := hs.1 0 r' (hslots ▸ hr')
  refine ⟨hnodup, hresetn.trans hr1, fun hlive e he => ?_⟩
  rw [(hcells e.line).1, (hcells e.line).2.1]
  exact hknown hlive e he

/-! ## Operations on records -/

/-- A record granted on lines without a holder, into a slot without a live record, keeps the agreement (R31, R35). -/
theorem State.cellsFollow.grantInto {s : State} (hs : s.cellsFollow) {i : SlotId} {r : Record}
    (hslot : ∀ w, s.slots.get i = some w → w.state = .waiting) (hlines : (r.lines.map fun e => e.line).Nodup)
    (hresetn : s.resetn = true) (hidle : ∀ l, r.names l = true → ¬ s.lineHeld l) : (s.grantInto i r).cellsFollow := by
  obtain ⟨_, _, hreset, _⟩ := (tableOnly.grantInto s i r).kept
  have hself : (s.grantInto i r).slots.get i = some (r.granted s.now s.profile.settle) := by
    rw [State.grantInto_slots, Table.get_set_self]
  have hfields : (r.granted s.now s.profile.settle).owner = r.owner ∧ (r.granted s.now s.profile.settle).ticket = r.ticket
      ∧ (r.granted s.now s.profile.settle).lines = r.lines := by
    unfold Record.granted Record.inHeld
    split <;> exact ⟨rfl, rfl, rfl⟩
  obtain ⟨howner, hticket, hl⟩ := hfields
  refine hs.update (i := i) (touched := fun l => r.names l = true)
    (fun j hj => by rw [State.grantInto_slots, Table.get_set_ne _ _ hj]) hreset
    (fun l hl => by rw [State.grantInto_cell_ne _ _ (by simpa using hl)]; exact ⟨rfl, rfl, id⟩)
    (fun l hl j _ w hw hlive => by
      by_contra hwl
      exact hidle l hl ⟨j, w, hw, hlive, by simpa using hwl⟩)
    (fun r' hr' => ?_) (fun l htouched => ?_) fun l hl w hw hlive _ => absurd (hslot w hw) hlive
  · obtain rfl := Option.some.inj (hself.symm.trans hr')
    refine ⟨hl ▸ hlines, hreset.trans hresetn, fun _ e he => ?_⟩
    rw [hl] at he
    rw [howner, hticket, Record.granted_state]
    by_cases hsettle : s.profile.settle = 0
    · rw [State.grantInto_cell_held i hsettle hlines he, if_pos hsettle]
      exact ⟨rfl, fun _ => rfl⟩
    · rw [State.grantInto_cell_settling i hsettle ((r.names_iff _).mpr ⟨e, he, rfl⟩), if_neg hsettle]
      exact ⟨rfl, fun h => absurd rfl h⟩
  · have hnames : (r.granted s.now s.profile.settle).names l = true := by rw [Record.granted_names]; exact htouched
    obtain ⟨e, he, rfl⟩ := (r.names_iff l).mp htouched
    have hparked := (hs.holder_none (hidle _ htouched)).2.2
    unfold State.cellFollows
    by_cases hsettle : s.profile.settle = 0
    · rw [State.grantInto_cell_held i hsettle hlines he]
      refine ⟨fun x hx => ?_, .inl ⟨_, rfl, .inl rfl⟩⟩
      cases hx
      exact ⟨_, hself, Record.granted_live _ _ _, hnames⟩
    · rw [State.grantInto_cell_settling i hsettle htouched]
      refine ⟨fun x hx => ?_, .inr ⟨rfl, hparked⟩⟩
      cases hx
      exact ⟨_, hself, Record.granted_live _ _ _, hnames⟩

/-- A live record that stays so, its cells told of its new state, keeps the agreement. -/
theorem State.cellsFollow.told {s t : State} (hs : s.cellsFollow) {i : SlotId} {r r' : Record} (hrec : s.slots.get i = some r)
    (hlive : r.state ≠ .waiting) (hslots : t.slots = s.slots.set i (some r')) (hresetn : t.resetn = s.resetn)
    (hkeeps : r'.owner = r.owner ∧ r'.ticket = r.ticket ∧ r'.lines.map (fun e => e.line) = r.lines.map fun e => e.line)
    (hstate : r'.state = .held ∨ r'.state = .yielding)
    (hcells : ∀ l, r.names l = false → (t.cells.get l).holder = (s.cells.get l).holder
      ∧ (t.cells.get l).applied = (s.cells.get l).applied ∧ ((s.cells.get l).parked = false → (t.cells.get l).parked = false))
    (hknown : ∀ e ∈ r'.lines, (t.cells.get e.line).holder =
        some { slot := i, owner := r.owner, ticket := r.ticket, state := r'.state }
      ∧ (t.cells.get e.line).applied = some e.setting) : t.cellsFollow := by
  obtain ⟨howner, hticket, hlines⟩ := hkeeps
  have hnames (l : LineId) : r'.names l = r.names l := by
    have hany (w : Record) : w.names l = (w.lines.map fun e => e.line).any fun m => m == l := by
      rw [Record.names, List.any_map]; rfl
    rw [hany, hany, hlines]
  have hlive' : r'.state ≠ .waiting := by rcases hstate with h | h <;> simp [h]
  have hself : t.slots.get i = some r' := by rw [hslots, Table.get_set_self]
  refine hs.update (i := i) (touched := fun l => r.names l = true)
    (fun j hj => by rw [hslots, Table.get_set_ne _ _ hj]) hresetn (fun l hl => hcells l (by simpa using hl))
    (fun l hl j hj w hw hwlive => ?_) (fun w hw => ?_) (fun l htouched => ?_) fun l hl w hw hwlive hwl => ?_
  · by_contra hwl
    exact hj (hs.oneHolder j w hw i r hrec hwlive hlive ⟨l, by simpa using hwl, hl⟩)
  · obtain rfl := Option.some.inj (hself.symm.trans hw)
    obtain ⟨hnodup, hr1, _⟩ := hs.1 i r hrec
    refine ⟨hlines ▸ hnodup, hresetn.trans hr1, fun _ e he => ?_⟩
    rw [howner, hticket]
    exact ⟨(hknown e he).1, fun _ => (hknown e he).2⟩
  · obtain ⟨e, he, rfl⟩ := (r'.names_iff l).mp ((hnames l).trans htouched)
    obtain ⟨hholder, _⟩ := hknown e he
    refine ⟨fun x hx => ?_, .inl ⟨_, hholder, hstate⟩⟩
    rw [hholder] at hx
    cases hx
    exact ⟨r', hself, hlive', (hnames _).trans htouched⟩
  · obtain rfl := Option.some.inj (hrec.symm.trans hw)
    exact absurd hwl hl

/-- A record that passes between HELD and YIELDING keeps the agreement (R53, R56, R73). -/
theorem State.cellsFollow.pass {s : State} (hs : s.cellsFollow) {i : SlotId} {r r' : Record} (hrec : s.slots.get i = some r)
    (hstate : r.state = .held ∨ r.state = .yielding) (hstate' : r'.state = .held ∨ r'.state = .yielding)
    (hkeeps : r'.owner = r.owner ∧ r'.ticket = r.ticket ∧ r'.lines = r.lines) :
    ((s.putRecord i r').reportPass r r'.state).cellsFollow := by
  obtain ⟨howner, hticket, hlines⟩ := hkeeps
  have hlive : r.state ≠ .waiting := by rcases hstate with h | h <;> simp [h]
  have hsettled : r.state ≠ .settling := by rcases hstate with h | h <;> simp [h]
  refine hs.told hrec hlive rfl rfl ⟨howner, hticket, by rw [hlines]⟩ hstate' (fun l hl => ?_) fun e he => ?_
  · simp [hl]
  · rw [hlines] at he
    have hnames : r.names e.line = true := (r.names_iff _).mpr ⟨e, he, rfl⟩
    obtain ⟨hholder, happlied⟩ := (hs.1 i r hrec).2.2 hlive e he
    simp [hnames, Cell.pass, Cell.present, hholder, happlied hsettled]

/-- A freed record's lines are no one's (R7). -/
theorem State.cellsFollow.free {s : State} (hs : s.cellsFollow) {i : SlotId} {r : Record} (hrec : s.slots.get i = some r)
    (cause : FreeCause) : (s.free i cause).cellsFollow := by
  obtain ⟨_, _, hresetn, _⟩ := (tableOnly.free s i cause).kept
  refine hs.update (i := i) (touched := fun l => r.state ≠ .waiting ∧ r.names l = true) (fun j hj => by simp [hj]) hresetn
    (fun l hl => by rw [State.free_cells hrec, if_neg hl]; exact ⟨rfl, rfl, id⟩) (fun l hl j hj w hw hwlive => ?_)
    (fun w hw => ?_) (fun l hl => ?_) fun l hl w hw hwlive hwl => ?_
  · by_contra hwl
    exact hj (hs.oneHolder j w hw i r hrec hwlive hl.1 ⟨l, by simpa using hwl, hl.2⟩)
  · rw [State.free_slots, if_pos rfl] at hw; cases hw
  · unfold State.cellFollows
    rw [State.free_cells hrec, if_pos hl]
    exact ⟨fun x hx => (by cases hx), .inr ⟨rfl, rfl⟩⟩
  · obtain rfl := Option.some.inj (hrec.symm.trans hw)
    exact absurd ⟨hwlive, hwl⟩ hl

/-- A move keeps the agreement. -/
theorem State.cellsFollow.moves {s t : State} (hs : s.cellsFollow) {cause : FreeCause} {i : SlotId} {r : Record}
    (hrec : s.slots.get i = some r) (h : Moves cause s i r t) : t.cellsFollow := by
  have hposted {u : State} (hu : u.cellsFollow) (n : HostId) (tk : Byte) (k : NoticeKind) : (u.post n tk k).cellsFollow :=
    hu.of_cells rfl rfl fun _ => ⟨rfl, rfl, id⟩
  cases h with
  | freed => exact hs.free hrec cause
  | granted hwaiting hidle =>
    obtain ⟨hnodup, hresetn, _⟩ := hs.1 i r hrec
    have hgrant := hs.grantInto (i := i) (r := r)
      (fun w hw => by obtain rfl := Option.some.inj (hrec.symm.trans hw); exact hwaiting) hnodup hresetn hidle
    unfold State.grant
    split
    · exact hposted hgrant _ _ _
    · exact hgrant
  | yielded hheld =>
    exact hposted (hs.pass hrec (r' := r.asYielding s.now s.profile.yieldWindow) (.inl hheld) (.inr rfl) ⟨rfl, rfl, rfl⟩) _ _ _
  | returned hyielding =>
    exact hposted (hs.pass hrec (r' := r.asHeld) (.inr hyielding) (.inl rfl) ⟨rfl, rfl, rfl⟩) _ _ _

/-! ## Line flags -/

/-- A line flag of host `m` for line `l` stands. -/
def State.flagged (s : State) (m : HostId) (l : LineId) : Prop :=
  (has (s.boards.get m).change l || has (s.boards.get m).overrun l || has (s.boards.get m).fault l) = true

/-- Host `m` holds line `l` in a HELD or YIELDING record. -/
def State.presentsFor (s : State) (m : HostId) (l : LineId) : Prop :=
  ∃ i, ∃ r ∈ s.slots.get i, r.owner = m ∧ r.names l = true ∧ (r.state = .held ∨ r.state = .yielding)

/-- R111, line by line. -/
theorem State.flagsForHeldLines_iff (s : State) : s.flagsForHeldLines ↔ ∀ m l, s.flagged m l → s.presentsFor m l := Iff.rfl

/-- Flags for held lines alone, where flags are no more and holdings no fewer. -/
theorem State.flagsForHeldLines.of_imp {s t : State} (hs : s.flagsForHeldLines) (hflags : ∀ m l, t.flagged m l → s.flagged m l)
    (hholds : ∀ m l, s.presentsFor m l → t.presentsFor m l) : t.flagsForHeldLines :=
  fun m l h => hholds m l (hs m l (hflags m l h))

/-- A move keeps line flags for held lines alone: a freed record's are cleared (R7, R111). -/
theorem State.flagsForHeldLines.moves {s t : State} (hs : s.flagsForHeldLines) {cause : FreeCause} {i : SlotId} {r : Record}
    (hrec : s.slots.get i = some r) (h : Moves cause s i r t) : t.flagsForHeldLines := by
  obtain ⟨hself, hne⟩ := h.slots
  intro m l hflag
  obtain ⟨hc, ho, hf⟩ := h.lineFlags hrec m l
  rw [hc, ho, hf] at hflag
  have hkept : ¬ (m = r.owner ∧ t.slots.get i = none ∧ r.names l = true) := fun hlost => by simp [hlost] at hflag
  obtain ⟨j, w, hw, howner, hl, hstate⟩ := hs m l (by simpa [hkept] using hflag)
  by_cases hj : j = i
  · subst hj
    obtain rfl := Option.some.inj (hrec.symm.trans hw)
    cases hslot : t.slots.get j with
    | none => exact absurd ⟨howner.symm, hslot, hl⟩ hkept
    | some r' =>
      rw [hslot] at hself
      obtain ⟨howner', _, _, _, hlines, _⟩ := hself.keeps
      refine ⟨j, r', hslot, howner'.trans howner, by rw [Record.names, hlines]; exact hl, ?_⟩
      rcases hself.remains with ⟨hwaiting, _⟩ | ⟨_, rfl⟩ | ⟨_, rfl⟩
      · rcases hstate with h | h <;> rw [h] at hwaiting <;> cases hwaiting
      · exact .inr rfl
      · exact .inl rfl
  · exact ⟨j, w, (hne j hj).trans hw, howner, hl, hstate⟩

/-- R30, R69, R111: table, cells and line flags agree. -/
def State.tableRight (s : State) : Prop := s.cellsFollow ∧ s.flagsForHeldLines

/-- Every elementary change keeps table, cells and line flags in agreement. -/
theorem Change.tableRight {s t : State} (h : Change s t) (hs : s.tableRight) : t.tableRight := by
  obtain ⟨hcells, hflags⟩ := hs
  cases h with
  | votes hside =>
    obtain ⟨_, hresetn, hslots, _, hsame, _⟩ := hside.kept
    refine ⟨hcells.of_cells hslots hresetn fun l => by rw [hsame]; exact ⟨rfl, rfl, id⟩,
      hflags.of_imp (fun m l h => ?_) fun m l ⟨i, r, hr, hx⟩ => ⟨i, r, hslots ▸ hr, hx⟩⟩
    obtain ⟨_, hc, ho, hf⟩ := hside.board m
    rwa [State.flagged, hc, ho, hf] at h
  | session n c => exact ⟨hcells, hflags⟩
  | clears n =>
    refine ⟨hcells, hflags.of_imp (fun m l h => ?_) fun _ _ h => h⟩
    rw [State.flagged, State.clearBoard, State.putBoard_boards, Table.get_set] at h
    split at h
    · simp [Board.empty] at h
    · exact h
  | profile p => exact ⟨hcells, hflags⟩
  | elects el => exact ⟨hcells, hflags⟩
  | moves hrec hmove => exact ⟨hcells.moves hrec hmove, hflags.moves hrec hmove⟩

/-- Every chain of elementary changes keeps the agreement. -/
theorem Changes.tableRight {s t : State} (h : Changes s t) (hs : s.tableRight) : t.tableRight :=
  h.keeps (fun _ _ => Change.tableRight) hs

/-! ## Claims and settle ends -/

/-- A WAITING record put in a FREE slot keeps the agreement (R21). -/
theorem State.cellsFollow.putWaiting {s : State} (hs : s.cellsFollow) {i : SlotId} {r : Record} (hfree : s.slots.get i = none)
    (hwaiting : r.state = .waiting) (hlines : (r.lines.map fun e => e.line).Nodup) (hresetn : s.resetn = true) :
    (s.putRecord i r).cellsFollow := by
  refine hs.update (i := i) (touched := fun _ => False) (fun j hj => by simp [Table.get_set_ne _ _ hj]) rfl
    (fun _ _ => ⟨rfl, rfl, id⟩) (fun _ h => h.elim) (fun w hw => ?_) (fun _ h => h.elim) fun l _ w hw => ?_
  · obtain rfl : r = w := by simpa using hw
    exact ⟨hlines, hresetn, fun hlive => absurd hwaiting hlive⟩
  · rw [hfree] at hw; cases hw

/-- A record put where none was takes no line from a holder (R111). -/
theorem State.flagsForHeldLines.put {s t : State} (hs : s.flagsForHeldLines) {i : SlotId} {x : Option Record}
    (hfree : s.slots.get i = none) (hslots : t.slots = s.slots.set i x) (hboards : t.boards = s.boards) :
    t.flagsForHeldLines := by
  refine hs.of_imp (fun m l h => by rwa [State.flagged, hboards] at h) fun m l ⟨j, w, hw, hx⟩ => ⟨j, w, ?_, hx⟩
  have hj : j ≠ i := fun heq => by rw [heq, hfree] at hw; cases hw
  rw [hslots, Table.get_set_ne _ _ hj]
  exact hw

/-- The lines of a claim are distinct (R3). -/
theorem nodup_of_claimArgs {p : List Byte} {a : ClaimArgs} (h : claimArgs p = some a) :
    (a.entries.map fun e => e.line).Nodup := by
  obtain ⟨_, _, _, hordered, _⟩ := claimArgs_eq_some h
  rw [List.nodup_iff_pairwise_ne, List.pairwise_map]
  exact hordered.imp fun hlt => ne_of_lt hlt

/-- A record in SETTLING that enters HELD keeps the agreement (R45). -/
theorem State.tableRight.enterHeld {s : State} (hs : s.tableRight) {i : SlotId} {r : Record} (hrec : s.slots.get i = some r)
    (hstate : r.state = .settling) : (s.enterHeld i r).tableRight := by
  obtain ⟨hcells, hflags⟩ := hs
  have hslots : (s.enterHeld i r).slots = s.slots.set i (some r.asHeld) := rfl
  have hcell (l : LineId) : (s.enterHeld i r).cells.get l =
      match r.settingOf l with
      | some st => ((s.cells.get l).hold (r.asHeld.holder i) st s.now).present (s.restOf l)
      | none => s.cells.get l := by
    simp only [State.enterHeld, State.reportHeld, State.mapCells, Table.get_ofFn]
    rfl
  constructor
  · refine hcells.told hrec (by simp [hstate]) hslots rfl ⟨rfl, rfl, rfl⟩ (.inl rfl) (fun l hl => ?_) fun e he => ?_
    · have hnone : r.settingOf l = none := by simpa [hl] using r.settingOf_isSome l
      rw [hcell, hnone]
      exact ⟨rfl, rfl, id⟩
    · rw [hcell, Record.settingOf_of_mem (hcells.1 i r hrec).1 he]
      exact ⟨rfl, rfl⟩
  · refine hflags.of_imp (fun _ _ h => h) fun m l ⟨j, w, hw, hx⟩ => ?_
    by_cases hj : j = i
    · subst hj
      obtain rfl := Option.some.inj (hrec.symm.trans hw)
      exact ⟨j, r.asHeld, by rw [hslots, Table.get_set_self]; rfl, hx.1, hx.2.1, .inl rfl⟩
    · exact ⟨j, w, by rw [hslots, Table.get_set_ne _ _ hj]; exact hw, hx⟩

/-- A settle end keeps the agreement (R45, R54). -/
theorem State.tableRight.settleEnd {s : State} (hs : s.tableRight) {i : SlotId} {r : Record} (hrec : s.slots.get i = some r)
    (hstate : r.state = .settling) : (s.settleEnd i r).tableRight := by
  have hheld := hs.enterHeld hrec hstate
  have hslot : (s.enterHeld i r).slots.get i = some r.asHeld := by
    rw [show (s.enterHeld i r).slots = s.slots.set i (some r.asHeld) from rfl, Table.get_set_self]
  unfold State.settleEnd
  split
  · exact (Change.moves (cause := .released) hslot (.yielded rfl)).tableRight hheld
  · obtain ⟨m, hrun⟩ := ((s.enterHeld i r).post r.owner r.ticket .granted).eligibility_run_self .released
    refine hrun.changes.tableRight ⟨hheld.1.of_cells rfl rfl fun _ => ⟨rfl, rfl, id⟩, hheld.2.of_imp (fun m l h => ?_) fun _ _ h => h⟩
    rw [State.flagged, State.post_boards, Table.get_set] at h
    split at h
    · rename_i hm; subst hm; exact h
    · exact h

/-! ## New settings -/

/-- A cell takes a new setting for the one it has; holder and park stand (R71, R84). -/
theorem Cell.adopt_kept (c : Cell) (st : Setting) (rest : Rest) (now : Nat) :
    (c.adopt st rest now).holder = c.holder ∧ (c.adopt st rest now).parked = c.parked
      ∧ (c.applied.isSome = true → (c.adopt st rest now).applied = some st)
      ∧ (c.applied = none → (c.adopt st rest now).applied = none) := by
  unfold Cell.adopt
  split
  · rename_i old hold
    split
    · simp [hold]
    · split <;> simp [hold, Cell.blank, Cell.present]
  · rename_i hnone
    simp [hnone]

/-- The entry at a position of an edited list (R84, R85). -/
theorem mem_editEntries (f : Nat → Setting → Setting) (es : List LineEntry) (e' : LineEntry) (p : Nat) :
    (e', p) ∈ (editEntries f es).zipIdx ↔ ∃ e, (e, p) ∈ es.zipIdx ∧ e' = { e with setting := f p e.setting } := by
  simp only [List.mem_zipIdx_iff_getElem?, editEntries, List.getElem?_map, Option.map_eq_some_iff, List.getElem?_zipIdx]
  constructor
  · rintro ⟨x, ⟨e, he, rfl⟩, rfl⟩
    exact ⟨e, he, by simp⟩
  · rintro ⟨e, he, rfl⟩
    exact ⟨(e, p), ⟨e, he, by simp⟩, rfl⟩

/-- An edit of settings leaves the lines (R84, R85). -/
theorem editEntries_lines (f : Nat → Setting → Setting) (es : List LineEntry) :
    (editEntries f es).map (fun e => e.line) = es.map fun e => e.line := by
  calc
    (editEntries f es).map (fun e => e.line) = es.zipIdx.map ((fun e => e.line) ∘ Prod.fst) := List.map_map
    _ = es.map fun e => e.line := by rw [← List.map_map, List.zipIdx_map_fst]

/-- In a list that names each line once, a line is found at its position. -/
theorem find_zipIdx_of_mem {es : List LineEntry} (hlines : (es.map fun e => e.line).Nodup) {e : LineEntry} {p : Nat}
    (h : (e, p) ∈ es.zipIdx) : (es.zipIdx.find? fun x => x.1.line == e.line) = some (e, p) := by
  obtain ⟨x, hx⟩ := Option.isSome_iff_exists.mp ((List.find?_isSome (p := fun x : LineEntry × Nat => x.1.line == e.line)).mpr
    ⟨(e, p), h, by simp⟩)
  have hline : x.1.line = e.line := by simpa using List.find?_some hx
  have hmem := List.mem_of_find?_eq_some hx
  have hnodup : (es.zipIdx.map fun x => x.1.line).Nodup := by
    rw [show (es.zipIdx.map fun x => x.1.line) = (es.zipIdx.map Prod.fst).map fun e => e.line from by rw [List.map_map]; rfl,
      List.zipIdx_map_fst]
    exact hlines
  rw [hx, List.inj_on_of_nodup_map hnodup hmem h hline]

/-- A cell after new settings for the record of its line (R69, R84, R85). -/
theorem State.resettle_cell {s : State} {i : SlotId} {r : Record} (named : Nat → Bool) (f : Nat → Setting → Setting)
    (hlines : (r.lines.map fun e => e.line).Nodup) {e : LineEntry} {p : Nat} (h : (e, p) ∈ r.lines.zipIdx) :
    (s.resettle i r named f).cells.get e.line =
      if named p then (s.cells.get e.line).adopt (f p e.setting) (s.restOf e.line) s.now else s.cells.get e.line := by
  have hmem : (({ e with setting := f p e.setting } : LineEntry), p) ∈ (editEntries f r.lines).zipIdx :=
    (mem_editEntries _ _ _ _).mpr ⟨e, h, rfl⟩
  have hfind := find_zipIdx_of_mem (by rw [editEntries_lines]; exact hlines) hmem
  simp only at hfind
  simp only [State.resettle, State.mapCells, Table.get_ofFn, hfind]
  rfl

/-- The cell of a line the record does not name stands (R84, R85). -/
theorem State.resettle_cell_ne {s : State} {i : SlotId} {r : Record} (named : Nat → Bool) (f : Nat → Setting → Setting)
    {l : LineId} (h : r.names l = false) : (s.resettle i r named f).cells.get l = s.cells.get l := by
  have hnone : ((editEntries f r.lines).zipIdx.find? fun x => x.1.line == l) = none := by
    rw [List.find?_eq_none]
    rintro ⟨e', p⟩ hx
    obtain ⟨e, he, rfl⟩ := (mem_editEntries _ _ _ _).mp hx
    have hmem : e ∈ r.lines := (List.mem_zipIdx' he).2 ▸ List.getElem_mem _
    have hne : ¬ e.line = l := fun heq => by
      rw [(r.names_iff l).mpr ⟨e, hmem, heq⟩] at h
      cases h
    simpa using hne
  simp only [State.resettle, State.mapCells, Table.get_ofFn, hnone]
  rfl

/-- New settings for a HELD or YIELDING record keep the agreement, where positions not named keep their settings (R69, R84, R85). -/
theorem State.tableRight.resettle {s : State} (hs : s.tableRight) {i : SlotId} {r : Record} (hrec : s.slots.get i = some r)
    (hp : r.presenting = true) {named : Nat → Bool} {f : Nat → Setting → Setting}
    (hf : ∀ p st, named p = false → f p st = st) : (s.resettle i r named f).tableRight := by
  obtain ⟨hcells, hflags⟩ := hs
  have hstate : r.state = .held ∨ r.state = .yielding := by simpa [Record.presenting] using hp
  have hlive := Record.live_of_presenting hp
  have hsettled : r.state ≠ .settling := by rcases hstate with h | h <;> simp [h]
  have hslots : (s.resettle i r named f).slots = s.slots.set i (some { r with lines := editEntries f r.lines }) := rfl
  obtain ⟨hnodup, _, hknown⟩ := hcells.1 i r hrec
  constructor
  · refine hcells.told hrec hlive hslots rfl ⟨rfl, rfl, editEntries_lines f r.lines⟩ hstate (fun l hl => ?_) fun e' he' => ?_
    · rw [State.resettle_cell_ne named f hl]
      exact ⟨rfl, rfl, id⟩
    · obtain ⟨p, hlt, hp'⟩ := List.getElem_of_mem he'
      have hmem : (e', p) ∈ (editEntries f r.lines).zipIdx := by
        rw [List.mem_zipIdx_iff_getElem?, List.getElem?_eq_getElem hlt, hp']
      obtain ⟨e, he, rfl⟩ := (mem_editEntries _ _ _ _).mp hmem
      have hme : e ∈ r.lines := (List.mem_zipIdx' he).2 ▸ List.getElem_mem _
      obtain ⟨hholder, happlied⟩ := hknown hlive e hme
      have happlied := happlied hsettled
      rw [State.resettle_cell named f hnodup he]
      split
      · obtain ⟨h1, _, h3, _⟩ := (s.cells.get e.line).adopt_kept (f p e.setting) (s.restOf e.line) s.now
        exact ⟨h1.trans hholder, h3 (by rw [happlied]; rfl)⟩
      · rename_i hnamed
        refine ⟨hholder, ?_⟩
        rw [happlied, hf p e.setting (by simpa using hnamed)]
  · refine hflags.of_imp (fun _ _ h => h) fun m l ⟨j, w, hw, howner, hl, hx⟩ => ?_
    by_cases hj : j = i
    · subst hj
      obtain rfl := Option.some.inj (hrec.symm.trans hw)
      exact ⟨j, { r with lines := editEntries f r.lines }, by rw [hslots, Table.get_set_self]; rfl, howner,
        (names_editEntries r f l).trans hl, hstate⟩
    · exact ⟨j, w, by rw [hslots, Table.get_set_ne _ _ hj]; exact hw, howner, hl, hx⟩

/-! ## Samples -/

/-- A filter step leaves holder, setting and park (R75). -/
theorem Cell.filter_kept (c : Cell) (level : Bool) :
    (c.filter level).holder = c.holder ∧ (c.filter level).applied = c.applied ∧ (c.filter level).parked = c.parked := by
  unfold Cell.filter
  split
  · exact ⟨rfl, rfl, rfl⟩
  · split <;> exact ⟨rfl, rfl, rfl⟩

/-- A cell with a claim has a HELD or YIELDING holder (R69). -/
theorem Cell.holder_of_claimed {c : Cell} {st : Setting} (h : c.claimed = some st) :
    ∃ x, c.holder = some x ∧ (x.state = .held ∨ x.state = .yielding) := by
  obtain ⟨⟨x, hx, hstate⟩, _⟩ := (Cell.claimed_eq_some c st).mp h
  exact ⟨x, hx, hstate⟩

/-- A sample parks claimed lines alone (R75, R80). -/
theorem Cell.sample_kept (c : Cell) (level : Bool) (moment : Nat) (rest : Rest) :
    (c.sample level moment rest).holder = c.holder ∧ (c.sample level moment rest).applied = c.applied
      ∧ ((c.sample level moment rest).parked = c.parked
        ∨ ∃ x, c.holder = some x ∧ (x.state = .held ∨ x.state = .yielding)) := by
  obtain ⟨hholder, happlied, hparked⟩ := c.filter_kept level
  unfold Cell.sample
  split
  · rename_i hfault
    refine ⟨hholder, happlied, .inr ?_⟩
    unfold Cell.faults at hfault
    split at hfault
    · rename_i st hclaim
      exact Cell.holder_of_claimed hclaim
    · cases hfault
  · exact ⟨hholder, happlied, .inl hparked⟩

/-- A sampling tick keeps the agreement (R75, R77, R80). -/
theorem State.tableRight.tick {s : State} (hs : s.tableRight) (levels : LineSet) : (s.tick levels).tableRight := by
  obtain ⟨hcells, hflags⟩ := hs
  have hslots : (s.tick levels).slots = s.slots := by rw [State.tick_frame]
  have hresetn : (s.tick levels).resetn = s.resetn := by rw [State.tick_frame]
  have hkept (l : LineId) := (s.cells.get l).sample_kept (has levels l) s.tickTime (s.restOf l)
  constructor
  · refine (State.cellsFollow_iff _).mpr ⟨fun i r hr => ?_, fun l => ?_⟩
    · obtain ⟨hnodup, hr1, hknown⟩ := hcells.1 i r (hslots ▸ hr)
      refine ⟨hnodup, hresetn.trans hr1, fun hlive e he => ?_⟩
      rw [State.tick_cell, (hkept e.line).1, (hkept e.line).2.1]
      exact hknown hlive e he
    · obtain ⟨hholder, hclaim⟩ := hcells.2 l
      obtain ⟨h1, h2, h3⟩ := hkept l
      unfold State.cellFollows
      rw [State.tick_cell, h1, h2, hslots]
      refine ⟨hholder, ?_⟩
      rcases h3 with hparked | ⟨x, hx, hstate⟩
      · rw [hparked]; exact hclaim
      · exact .inl ⟨x, hx, hstate⟩
  · have hown (m : HostId) (l : LineId) {q : LineId → Cell → Bool} (hq : has (ownLines s m q) l = true)
        (hclaimed : q l (s.cells.get l) = true → ∃ st, (s.cells.get l).claimed = some st) : s.presentsFor m l := by
      simp only [ownLines, has_bitsWhere, Bool.and_eq_true] at hq
      obtain ⟨howner, hq⟩ := hq
      obtain ⟨st, hst⟩ := hclaimed hq
      obtain ⟨x, hx, hstate⟩ := Cell.holder_of_claimed hst
      obtain ⟨r, hr, hlive, hl⟩ := (hcells.2 l).1 x hx
      have heq := Option.some.inj ((hcells.holder hr hlive hl).symm.trans hx)
      rw [hx] at howner
      refine ⟨x.slot, r, hr, ?_, hl, ?_⟩
      · have : r.owner = x.owner := congrArg Holder.owner heq
        rw [this]; simpa using howner
      · have : r.state = x.state := congrArg Holder.state heq
        rw [this]; exact hstate
    have hedge (m : HostId) (l : LineId) (h : has (ownLines s m fun l c => c.edge (has levels l)) l = true) : s.presentsFor m l :=
      hown m l h fun hq => by
        unfold Cell.edge at hq
        split at hq
        · rename_i st hst; exact ⟨st, hst⟩
        · cases hq
    have hfault (m : HostId) (l : LineId) (h : has (ownLines s m fun l c => c.faults (has levels l) s.tickTime) l = true) :
        s.presentsFor m l :=
      hown m l h fun hq => by
        unfold Cell.faults at hq
        split at hq
        · rename_i st hst; exact ⟨st, hst⟩
        · cases hq
    intro m l hflag
    have hholds : s.presentsFor m l := by
      have hold := hflags m l
      simp only [State.tick_board, State.sampledBoard, Board.sampled, has_or, has_and, Bool.or_eq_true, Bool.and_eq_true] at hflag hold
      rcases hflag with ((h | h) | (h | ⟨h, _⟩)) | (h | h)
      · exact hold (.inl (.inl h))
      · exact hedge m l h
      · exact hold (.inl (.inr h))
      · exact hedge m l h
      · exact hold (.inr h)
      · exact hfault m l h
    obtain ⟨i, r, hr, hx⟩ := hholds
    exact ⟨i, r, by rw [hslots]; exact hr, hx⟩

/-! ## Every effect -/

/-- The agreement stands where the table and the boards stand and no cell changes holder, setting or park. -/
theorem State.tableRight.of_cells {s t : State} (hs : s.tableRight) (hslots : t.slots = s.slots) (hresetn : t.resetn = s.resetn)
    (hboards : t.boards = s.boards)
    (hcells : ∀ l, (t.cells.get l).holder = (s.cells.get l).holder ∧ (t.cells.get l).applied = (s.cells.get l).applied
      ∧ ((s.cells.get l).parked = false → (t.cells.get l).parked = false)) : t.tableRight :=
  ⟨hs.1.of_cells hslots hresetn hcells, hs.2.of_imp (fun m l h => by rwa [State.flagged, hboards] at h)
    fun m l ⟨i, r, hr, hx⟩ => ⟨i, r, hslots ▸ hr, hx⟩⟩

/-- The agreement stands through an edit of one board that sets no line flag. -/
theorem State.tableRight.editBoard {s : State} (hs : s.tableRight) (n : HostId) {f : Board → Board}
    (hf : ∀ b : Board, ∀ l : LineId, (has (f b).change l || has (f b).overrun l || has (f b).fault l) = true →
      (has b.change l || has b.overrun l || has b.fault l) = true) : (s.editBoard n f).tableRight := by
  refine ⟨hs.1.of_cells rfl rfl fun _ => ⟨rfl, rfl, id⟩, hs.2.of_imp (fun m l h => ?_) fun _ _ h => h⟩
  rw [State.flagged, State.editBoard_boards, Table.get_set] at h
  split at h
  · rename_i hm; subst hm; exact hf _ l h
  · exact h

/-- With no record and no line flag, table and cells without holders agree. -/
theorem State.tableRight_of_empty {s : State} (hslots : ∀ i, s.slots.get i = none)
    (hcells : ∀ l, (s.cells.get l).holder = none ∧ (s.cells.get l).applied = none ∧ (s.cells.get l).parked = false)
    (hflags : ∀ m l, ¬ s.flagged m l) : s.tableRight := by
  refine ⟨(State.cellsFollow_iff s).mpr ⟨fun i r hr => ?_, fun l => ?_⟩, fun m l h => absurd h (hflags m l)⟩
  · rw [hslots i] at hr; cases hr
  · obtain ⟨hholder, happlied, hparked⟩ := hcells l
    exact ⟨fun x hx => (by rw [hholder] at hx; cases hx), .inr ⟨happlied, hparked⟩⟩

/-- Every effect keeps table, cells and line flags in agreement. -/
theorem Effect.tableRight {c : Instr} {s t : State} (h : Effect c s t) (hs : s.tableRight) : t.tableRight := by
  cases h with
  | stands | beats | bonds | editsHost | times | commits => exact hs
  | falls dt _ _ h =>
    obtain rfl := Host.Outcome.next.inj h
    exact State.tableRight_of_empty (fun i => by simp) (fun l => by simp [Cell.inReset])
      fun m l hflag => by simp [State.flagged, Board.empty] at hflag
  | rises dt levels _ hlow =>
    have hempty (i : SlotId) : s.slots.get i = none := by
      cases hr : s.slots.get i with
      | none => rfl
      | some r =>
        have hhigh := (hs.1.1 i r hr).2.1
        rw [hlow] at hhigh
        cases hhigh
    refine State.tableRight_of_empty hempty (fun l => by simp [Cell.reset]) fun m l hflag => ?_
    obtain ⟨i, r, hr, _⟩ := hs.2 m l hflag
    rw [hempty i] at hr
    cases hr
  | begins dt n p => exact (Changes.beginSession s n p).tableRight hs
  | restarts dt n p => exact (Changes.restartSession s n p).tableRight hs
  | detaches dt n => exact (Changes.detachAttached s n).tableRight hs
  | closes dt n => exact (Changes.detachLapsed s n).tableRight hs
  | lapses n => exact (Changes.lapse s n).tableRight hs
  | clears dt n => exact (Changes.clearAll s n).tableRight hs
  | releases | revokes | expires => exact (Changes.freeAll s _ _).tableRight hs
  | votes dt n => exact (Change.votes (.reopenVote s n)).tableRight hs
  | failsVote => exact (Change.votes (.failVote s _)).tableRight hs
  | claims dt n p a i _ hr hstate hargs hchecks hfree hgrant =>
    have hempty := ((freeSlot_eq_some s i).mp hfree).1
    obtain ⟨m, hrun⟩ := (s.grantInto i (newRecord s n a)).eligibility_run_self .released
    have hidle (l : LineId) (hl : (newRecord s n a).names l = true) : ¬ s.lineHeld l :=
      ((arrivalGrantable_iff s n a).mp hgrant l ((Record.names_iff _ _).mp hl)).1
    refine hrun.changes.tableRight ⟨hs.1.grantInto (fun w hw => ?_) (nodup_of_claimArgs hargs) hr hidle,
      hs.2.put hempty (s.grantInto_slots i _) (s.grantInto_boards i _)⟩
    rw [hempty] at hw
    cases hw
  | queues dt n p a i _ hr hstate hargs hchecks hfree hwait =>
    have hempty := ((freeSlot_eq_some s i).mp hfree).1
    obtain ⟨m, hrun⟩ := (s.putRecord i (newRecord s n a)).evaluate_run_self .released
    exact hrun.changes.tableRight ⟨hs.1.putWaiting hempty rfl (nodup_of_claimArgs hargs) hr, hs.2.put hempty rfl rfl⟩
  | settles i r _ hrec hstate => exact hs.settleEnd hrec hstate
  | levels dt i r a _ hrec hp => exact hs.resettle hrec hp fun p st h => by simp [h]
  | reconfigures dt i r named _ hrec hp =>
    refine State.tableRight.editBoard (hs.resettle hrec hp fun p st h => ?_) r.owner fun b l h => ?_
    · have hnone : settingAt named p = none := by simpa using h
      rw [hnone]; rfl
    · simp only [Board.unwatch, has_and, Bool.or_eq_true, Bool.and_eq_true] at h ⊢
      rcases h with (⟨h, _⟩ | ⟨h, _⟩) | h
      · exact .inl (.inl h)
      · exact .inl (.inr h)
      · exact .inr h
  | unparks dt r ps =>
    refine hs.of_cells rfl rfl rfl fun l => ?_
    simp only [State.unparkLines, State.mapCells, Table.get_ofFn]
    split
    · exact ⟨rfl, rfl, fun _ => rfl⟩
    · exact ⟨rfl, rfl, id⟩
  | fetches dt n => exact hs.editBoard n fun b l h => by simp [Board.fetched, Board.empty] at h
  | editsLines dt es =>
    have htold : ((s.storeLines es).tellRest es).tableRight := by
      refine hs.of_cells rfl rfl rfl fun l => ?_
      simp only [State.tellRest, State.mapCells, Table.get_ofFn]
      split <;> exact ⟨rfl, rfl, id⟩
    unfold State.applyLineProfile
    dsimp only
    split
    · exact htold
    · exact (Changes.freeAll ((s.storeLines es).tellRest es) _ _).tableRight htold
  | samples levels => exact hs.tick levels
  | unblanks l e =>
    refine hs.of_cells rfl rfl rfl fun m => ?_
    rw [Table.get_set]
    split
    · rename_i hm; subst hm; exact ⟨rfl, rfl, id⟩
    · exact ⟨rfl, rfl, id⟩

/-- Settles O55: each operation updates one slot and the cells of the lines its record holds. -/
theorem everyStepKeepsCellsAndTableAgreed : Obligations.EveryStepKeepsCellsAndTableAgreed := by
  unfold Obligations.EveryStepKeepsCellsAndTableAgreed
  intro s t hcells hflags hstep
  obtain ⟨h1, h2⟩ := step_keeps (P := State.tableRight) (fun _ _ h => h) (fun _ _ h hs => by rw [h]; exact hs)
    (fun _ _ h hs => by rw [h.frame]; exact hs) (fun _ _ _ h hs => h.tableRight hs) hstep ⟨hcells, hflags⟩
  exact ⟨h1, h2, h1.oneHolder⟩

end Sys2Proof.Machine
end

section
/-! SUPPORT. What holds of every command, read off its effect: the next state and the queue (R161), epochs (R91), the contents of a
COMMITTED profile (R132). -/

namespace Sys2Proof.Machine

/-! ## The queue -/

/-- The queue of commands and the blocks' turns are the same in `s` and `t`. -/
def sameTurns (s t : State) : Prop :=
  t.pending = s.pending ∧ t.ctcLast = s.ctcLast ∧ t.lcaLast = s.lcaLast ∧ t.puLast = s.puLast

/-- Turns stay through two changes. -/
theorem sameTurns.trans {s t u : State} (h1 : sameTurns s t) (h2 : sameTurns t u) : sameTurns s u := by
  obtain ⟨hp, hc, hl, hu⟩ := h2
  exact ⟨hp.trans h1.1, hc.trans h1.2.1, hl.trans h1.2.2.1, hu.trans h1.2.2.2⟩

/-- The table's operations leave them. -/
theorem tableOnly.sameTurns {s t : State} (h : tableOnly s t) : sameTurns s t := by
  have hall := congrArg (fun u : State => (u.pending, u.ctcLast, u.lcaLast, u.puLast)) h.1
  simp only [Prod.mk.injEq] at hall
  exact hall

/-- The vote's operations leave them. -/
theorem voteSide.sameTurns {s t : State} (h : voteSide s t) : sameTurns s t := by
  have hall := congrArg (fun u : State => (u.pending, u.ctcLast, u.lcaLast, u.puLast)) h.1
  simp only [Prod.mk.injEq] at hall
  exact hall

/-- A change leaves them. -/
theorem Change.sameTurns {s t : State} (h : Change s t) : sameTurns s t := by
  cases h with
  | votes h => exact h.sameTurns
  | session | clears | profile | elects => exact ⟨rfl, rfl, rfl, rfl⟩
  | moves _ h => exact h.tableOnly.sameTurns

/-- So does a run of changes. -/
theorem Changes.sameTurns {s t : State} (h : Changes s t) : sameTurns s t :=
  h.keeps (P := fun u => Machine.sameTurns s u) (fun _ _ huv hu => hu.trans huv.sameTurns) ⟨rfl, rfl, rfl, rfl⟩

/-- An effect leaves the queue, and the turns but for a hardware reset (log 20). -/
theorem Effect.turns {c : Instr} {s t : State} (h : Effect c s t) :
    t.pending = s.pending ∧ ((∃ dt, c = .hardwareReset dt) ∨ sameTurns s t) := by
  suffices hkept : (∃ dt, c = .hardwareReset dt) ∧ t.pending = s.pending ∨ sameTurns s t by
    rcases hkept with ⟨hc, hp⟩ | hsame
    · exact ⟨hp, .inl hc⟩
    · exact ⟨hsame.1, .inr hsame⟩
  cases h with
  | falls dt s t h => cases h; exact .inl ⟨⟨dt, rfl⟩, rfl⟩
  | stands | rises | beats | bonds | editsHost | times | commits | fetches | unparks | unblanks | closes | levels | reconfigures =>
    exact .inr ⟨rfl, rfl, rfl, rfl⟩
  | begins dt n p => exact .inr (Changes.beginSession s n p).sameTurns
  | restarts dt n p => exact .inr (Changes.restartSession s n p).sameTurns
  | detaches dt n => exact .inr (Changes.detachAttached s n).sameTurns
  | lapses n => exact .inr (Changes.lapse s n).sameTurns
  | claims dt n p a i => exact .inr (tableOnly.claims s i _).sameTurns
  | queues dt n p a i => exact .inr (tableOnly.queues s i _).sameTurns
  | releases dt i => exact .inr (tableOnly.freeAll s [i] _).sameTurns
  | settles i r => exact .inr (tableOnly.settleEnd s i r).sameTurns
  | revokes i => exact .inr (tableOnly.freeAll s [i] _).sameTurns
  | expires i => exact .inr (tableOnly.freeAll s [i] _).sameTurns
  | editsLines dt es =>
    have hstored : sameTurns s (s.storeLines es) := ⟨rfl, rfl, rfl, rfl⟩
    exact .inr (hstored.trans (s.applyLineProfile_frame es).sameTurns)
  | votes dt n => exact .inr (voteSide.reopenVote s n).sameTurns
  | clears dt n => exact .inr (Changes.clearAll s n).sameTurns
  | samples levels => exact .inr (by rw [s.tick_frame levels]; exact ⟨rfl, rfl, rfl, rfl⟩)
  | failsVote => exact .inr (voteSide.failVote s s.vote.voted).sameTurns

/-- A command leaves the queue of commands (log 20). -/
theorem does.pending {c : Instr} {s t : State} (h : does c s t) : t.pending = s.pending := by
  obtain ⟨u, v, w, hu, hv, hw, ht, _⟩ := h
  rw [ht.kept.1, hw.turns.1, hv.frame, hu.kept.1]

/-! ## Events that cannot occur -/

/-- Where no request is offered, a block's command lets the time pass (log 6). -/
theorem State.takeChosen_of_noneOffered {s : State} {k : Kind} (h : s.noneOffered k) (dt : Nat)
    (f : State → HostId → Request → State × Answer) : (s.elapse dt).takeChosen k f = s.elapse dt := by
  rcases (s.elapse dt).takeChosen_cases k f with heq | ⟨n, q, hoffers, _⟩
  · exact heq
  · exact absurd hoffers (h n q)

/-- Where no request waits, the Session Unit's command lets the time pass (log 6). -/
theorem State.takeSession_of_noneWaits {s : State} {k : Kind} {n : HostId} (h : s.noneWaits k n) (dt : Nat)
    (f : State → HostId → Request → Session → State × Answer) : (s.elapse dt).takeSession n k f = s.elapse dt := by
  rcases (s.elapse dt).takeSession_cases n k f with heq | ⟨q, hr, hwaits, hkind, _⟩
  · exact heq
  · exact absurd ⟨hr, hwaits, hkind⟩ (h q)

/-- Where no request waits, the Notice Board's command lets the time pass (log 6). -/
theorem State.takeAt_of_noneWaits {s : State} {k : Kind} {n : HostId} (h : s.noneWaits k n) (dt : Nat)
    (f : State → HostId → Request → State × Answer) : (s.elapse dt).takeAt n k f = s.elapse dt := by
  rcases (s.elapse dt).takeAt_cases n k f with heq | ⟨q, hr, hwaits, hkind, _⟩
  · exact heq
  · exact absurd ⟨hr, hwaits, hkind⟩ (h q)

/-- A command whose event the part cannot meet changes the time alone (log 6). -/
theorem exec_of_cannotMeet {s : State} {c : Instr} (h : s.cannotMeet c) : exec c s = .next (s.elapse c.elapsed) := by
  cases c with
  | hardwareReset | requestFrame | readTransaction | ignoredTransaction => exact h.elim
  | resetnRise dt levels => exact congrArg Host.Outcome.next (if_pos h)
  | status dt n | attach dt n | detach dt n | heartbeat dt n =>
    exact congrArg Host.Outcome.next (State.takeSession_of_noneWaits h dt _)
  | fetchNotices dt n => exact congrArg Host.Outcome.next (State.takeAt_of_noneWaits h dt _)
  | claim dt | release dt | queryClaim dt | setLevels dt | reconfigure dt | clearFault dt | readLines dt | queryLine dt
  | readProfile dt | setLineProfile dt | setBond dt | setHostProfile dt | setTiming dt | commitProfile dt | reopenVote dt
  | clearAll dt => exact congrArg Host.Outcome.next (State.takeChosen_of_noneOffered h dt _)
  | samplingTick levels => exact congrArg Host.Outcome.next (if_neg (by simp [show s.resetn = false from h]))
  | blankingEnd l =>
    refine congrArg Host.Outcome.next ?_
    split
    · rename_i e hr he
      exact absurd ⟨hr, by simp [he]⟩ h
    · rfl
  | settleEnd i | yieldEnd i | waitEnd i =>
    refine congrArg Host.Outcome.next ?_
    split
    · rename_i r hr hrec
      split
      · rename_i d hstate hd
        exact absurd ⟨hr, r, hrec, hstate, by simp [hd]⟩ h
      · rfl
    · rfl
  | heartbeatExpiry n =>
    refine congrArg Host.Outcome.next ?_
    split
    · rename_i d hr hstate hd
      exact absurd ⟨hr, hstate, by simp [hd]⟩ h
    · rfl
  | voteDeadline =>
    refine congrArg Host.Outcome.next ?_
    split
    · rename_i d hr hrunning hd
      exact absurd ⟨hr, hrunning, by simp [hd]⟩ h
    · rfl

/-! ## Epochs -/

/-- The epoch that follows another, with 65535 followed by 1 (R91). -/
theorem toNat_nextEpoch (e : BitVec 16) : (nextEpoch e).toNat = if e.toNat = 65535 then 1 else e.toNat + 1 := by
  have hlt := e.isLt
  unfold nextEpoch
  by_cases h : e.toNat = 65535
  · rw [if_pos h, if_pos (BitVec.eq_of_toNat_eq h)]
    rfl
  · rw [if_neg h, if_neg fun he => h (by rw [he]; rfl), BitVec.toNat_add]
    simp only [BitVec.reduceToNat]
    omega

/-- An epoch changes at its host's ATTACH and at hardware reset alone (R90, R91). -/
theorem does.epoch {c : Instr} {s t : State} (h : does c s t) (n : HostId)
    (hne : (t.sessions.get n).epoch ≠ (s.sessions.get n).epoch) :
    ((∃ dt, c = .attach dt n) ∧ (t.sessions.get n).state = .attached
        ∧ (t.sessions.get n).epoch.toNat =
          (if (s.sessions.get n).epoch.toNat = 65535 then 1 else (s.sessions.get n).epoch.toNat + 1))
      ∨ ((∃ dt, c = .hardwareReset dt) ∧ (t.sessions.get n).epoch = 0#16) := by
  obtain ⟨u, v, w, hu, hv, hw, ht, _⟩ := h
  obtain ⟨_, _, _, hsessions, _⟩ := ht.kept
  obtain ⟨_, _, _, hbefore, _⟩ := hu.kept
  have hepoch : (v.sessions.get n).epoch = (s.sessions.get n).epoch := by rw [(hv.session n).2.1, hbefore]
  rw [hsessions, ← hepoch] at hne ⊢
  cases hw.sessionMoves n with
  | stands h => exact absurd (by rw [h]) hne
  | resets dt hc h => exact .inr ⟨⟨dt, hc⟩, by rw [h]; rfl⟩
  | begins dt p d hc _ h => exact .inl ⟨⟨dt, hc⟩, by rw [h]; rfl, by rw [h]; exact toNat_nextEpoch _⟩
  | beats p d _ _ h => exact absurd (by rw [h]) hne
  | ends st _ h => exact absurd (by rw [h]; rfl) hne

/-- While COMMITTED the contents of the profile stand, whatever comes but a hardware reset (R132). -/
theorem does.committed {c : Instr} {s t : State} (h : does c s t) (hcommitted : s.profile.state = .committed)
    (hreset : ∀ dt, c ≠ .hardwareReset dt) : t.profile = { s.profile with state := t.profile.state } := by
  obtain ⟨u, v, w, hu, hv, hw, ht, _⟩ := h
  obtain ⟨_, _, _, _, _, _, _, _, hafter, _⟩ := ht.kept
  obtain ⟨_, _, _, _, _, _, _, _, hbefore, _⟩ := hu.kept
  have hprofile : v.profile = s.profile := by rw [hv.frame, hbefore]
  have locked : v.profile.state ≠ .opened := by rw [hprofile, hcommitted]; decide
  rw [hafter, ← hprofile]
  cases hw.profileMoves with
  | stands h => exact h
  | resets dt hc => exact absurd hc (hreset dt)
  | lines hopen | bonds hopen | host hopen | timing hopen => exact absurd hopen locked

/-- Settles O1: `step` is that by definition. -/
theorem stepRunsTheFrontCommand : Obligations.StepRunsTheFrontCommand := fun _ _ _ => rfl

/-- Settles O2: a command is one of its effects, and one that finds no event is the time alone. -/
theorem everyCommandAnswersNext : Obligations.EveryCommandAnswersNext := by
  intro c s
  obtain ⟨t, ht, hdoes⟩ := exec_does c s
  exact ⟨⟨t, ht, hdoes.pending⟩, exec_of_cannotMeet⟩

/-- Settles O24, by what an effect makes of a session context. -/
theorem epochChangesAtAttachAlone : Obligations.EpochChangesAtAttachAlone :=
  fun _ _ _ n hexec hne => (exec_effect hexec).epoch n hne

/-- Settles O48, by what an effect makes of the profile. -/
theorem committedContentsStand : Obligations.CommittedContentsStand :=
  fun _ _ _ hexec hcommitted hreset => (exec_effect hexec).committed hcommitted hreset

end Sys2Proof.Machine
end

section
/-! SUPPORT. How an effect passes through the table: by a run of the records that stood, perhaps beside one born in a FREE slot, or
with every record in its state (chapters 2 and 3). -/

namespace Sys2Proof.Machine

/-! ## Where a run starts and where it ends -/

/-- `u` is `s` with perhaps a record born in a FREE slot, on lines no record holds and under a ticket its owner has no record of; the
cells of held lines are as they were, but for what they present. -/
structure Starts (s u : State) : Prop where
  stands : ∀ j, ∀ r ∈ s.slots.get j, u.slots.get j = some r
  born : ∀ j, ∀ w ∈ u.slots.get j, s.slots.get j = some w
    ∨ ((∀ k, ∀ r ∈ s.slots.get k, r.owner = w.owner → r.ticket ≠ w.ticket)
        ∧ (w.state ≠ .waiting → ∀ l, w.names l = true → ¬ s.lineHeld l))
  cells : ∀ l, s.lineHeld l → u.cells.get l = { s.cells.get l with presented := (u.cells.get l).presented }
  now : u.now = s.now
  settle : u.profile.settle = s.profile.settle
  window : u.profile.yieldWindow = s.profile.yieldWindow

/-- `t` has the table of `w`, and the notices of every host that has a record. -/
structure Ends (w t : State) : Prop where
  slots : t.slots = w.slots
  cells : t.cells = w.cells
  now : t.now = w.now
  lines : t.profile.lines = w.profile.lines
  window : t.profile.yieldWindow = w.profile.yieldWindow
  notices : ∀ j, ∀ r ∈ t.slots.get j, ∀ tk, t.noticeOf r.owner tk = w.noticeOf r.owner tk

/-- A state with the same table starts the run. -/
theorem Starts.of_eq {s u : State} (hslots : u.slots = s.slots) (hcells : u.cells = s.cells) (hnow : u.now = s.now)
    (hprofile : u.profile.settle = s.profile.settle ∧ u.profile.yieldWindow = s.profile.yieldWindow) : Starts s u where
  stands := fun j r hr => by rw [hslots]; exact hr
  born := fun j w hw => .inl (by rw [← hslots]; exact hw)
  cells := fun l _ => by rw [hcells]
  now := hnow
  settle := hprofile.1
  window := hprofile.2

/-- A run ends in its own state. -/
theorem Ends.refl (t : State) : Ends t t := ⟨rfl, rfl, rfl, rfl, rfl, fun _ _ _ _ => rfl⟩

/-- A run whose records leave one host, whose board is then cleared, its session and the vote changing beside it. -/
theorem Ends.of_side {w x t : State} {n : HostId} (hboards : x.boards = (w.clearBoard n).boards)
    (hside : voteSide x t) (hx : sameTable w x) (hgone : ∀ j, ∀ r ∈ w.slots.get j, r.owner ≠ n) : Ends w t := by
  obtain ⟨hslots, _, hcells, hnow, _, hprofile⟩ := hx.trans hside.sameTable
  refine ⟨hslots, hcells, hnow, by rw [hprofile], by rw [hprofile], fun j r hr tk => ?_⟩
  have hne : r.owner ≠ n := hgone j r (by rw [← hslots]; exact hr)
  have hother : (w.clearBoard n).boards.get r.owner = w.boards.get r.owner := Table.get_set_ne _ _ hne
  rw [State.noticeOf, State.noticeOf, (hside.board r.owner).1, hboards, hother]

/-- A restart ends the run that frees the host's records (R96). -/
theorem Ends.restarts {w : State} {n : HostId} (hgone : ∀ j, ∀ r ∈ w.slots.get j, r.owner ≠ n) (x : Session) :
    Ends w ((((w.clearBoard n).setVoted n false).putSession n x).hostRestarted n) :=
  .of_side (x := ((w.clearBoard n).setVoted n false).putSession n x) rfl (.hostRestarted _ n)
    (((sameTable.clearBoard w n).trans (voteSide.setVoted _ n false).sameTable).trans (.putSession _ n x)) hgone

/-- So does a DETACH (R100). -/
theorem Ends.detaches {w : State} {n : HostId} (hgone : ∀ j, ∀ r ∈ w.slots.get j, r.owner ≠ n) :
    Ends w ((w.clearBoard n).hostLeft n) :=
  .of_side (x := w.clearBoard n) rfl (.hostLeft _ n) (.clearBoard w n) hgone

/-- And so does a lapse (R99). -/
theorem Ends.lapses {w : State} {n : HostId} (hgone : ∀ j, ∀ r ∈ w.slots.get j, r.owner ≠ n) (f : SessionFlags → SessionFlags) :
    Ends w (((w.clearBoard n).flag n f).hostLeft n) :=
  .of_side (x := w.clearBoard n) rfl ((voteSide.flag _ n f).trans (.hostLeft _ n)) (.clearBoard w n) hgone

/-! ## The ways through the table -/

/-- The way from `s` to `t` through the table. -/
inductive Route (s t : State) : Prop
  /-- Every record keeps its state and its deadline. -/
  | stays (h : ∀ j, ∀ r ∈ s.slots.get j, ∀ r' ∈ t.slots.get j, r'.state = r.state ∧ r'.deadline = r.deadline ∧ r'.span = r.span)
  /-- A record leaves SETTLING. -/
  | settles (i : SlotId) (r : Record) (hrec : s.slots.get i = some r) (hstate : r.state = .settling) (h : t = s.settleEnd i r)
  /-- Records move in a run. -/
  | runs (cause : FreeCause) (u w : State) (l : List SlotId) (hstarts : Starts s u) (hrun : TableRun cause u l w) (hends : Ends w t)

/-- The same records stay. -/
theorem Route.of_slots {s t : State} (h : t.slots = s.slots) : Route s t := by
  refine .stays fun j r hr r' hr' => ?_
  rw [h] at hr'
  obtain rfl := Option.some.inj (hr.symm.trans hr')
  exact ⟨rfl, rfl, rfl⟩

/-- A freeing is a run from any state that starts it. -/
theorem Route.of_freeAll {s u t : State} (hstarts : Starts s u) (w : List SlotId) (cause : FreeCause)
    (hends : Ends (u.freeAll w cause) t) : Route s t :=
  have ⟨⟨l, hrun⟩, _⟩ := u.freeAll_run w cause
  .runs cause u _ l hstarts hrun hends

/-- The freeing of a host's records is a run from any state that starts it (R9). -/
theorem Route.of_freeHost {s u t : State} (hstarts : Starts s u) (n : HostId) (hends : Ends (u.freeHost n) t) : Route s t :=
  .of_freeAll hstarts _ _ hends

/-- The entries of a record are replaced position by position. -/
theorem Route.of_edit {s t : State} {i : SlotId} {r r' : Record} (hr : s.slots.get i = some r)
    (ht : t.slots = s.slots.set i (some r')) (hkeeps : r'.state = r.state ∧ r'.deadline = r.deadline ∧ r'.span = r.span) :
    Route s t := by
  refine .stays fun j x hx x' hx' => ?_
  rw [ht, Table.get_set] at hx'
  split at hx'
  · rename_i hj
    subst hj
    obtain rfl := Option.some.inj (hr.symm.trans hx)
    obtain rfl := Option.some.inj hx'
    exact hkeeps
  · obtain rfl := Option.some.inj (hx.symm.trans hx')
    exact ⟨rfl, rfl, rfl⟩

/-- A claim that passes its checks is made under a ticket its owner has no record of (R19). -/
theorem newRecord_ticket_ne {s : State} {n : HostId} {a : ClaimArgs} (hpasses : s.passes n a) {k : SlotId} {r : Record}
    (hr : s.slots.get k = some r) (howner : r.owner = (newRecord s n a).owner) : r.ticket ≠ (newRecord s n a).ticket := by
  obtain ⟨_, _, hticket, _⟩ := hpasses
  exact (not_not.mp (not_or.mp hticket).1) k r hr howner

/-- A record born in a FREE slot, whose cells alone change with it, starts the run. -/
theorem Starts.of_birth {s u : State} {i : SlotId} {r : Record} (hfree : s.slots.get i = none)
    (hslots : u.slots = s.slots.set i (some r)) (htable : tableOnly s u)
    (hticket : ∀ k, ∀ x ∈ s.slots.get k, x.owner = r.owner → x.ticket ≠ r.ticket)
    (hidle : r.state ≠ .waiting → ∀ l, r.names l = true → ¬ s.lineHeld l)
    (hcells : ∀ l, s.lineHeld l → u.cells.get l = s.cells.get l) : Starts s u where
  stands := fun j x hx => by
    rw [hslots, Table.get_set_ne]
    · exact hx
    · rintro rfl
      rw [hfree] at hx
      cases hx
  born := fun j w hw => by
    rw [hslots, Table.get_set] at hw
    split at hw
    · obtain rfl := Option.some.inj hw
      exact .inr ⟨hticket, hidle⟩
    · exact .inl hw
  cells := fun l hl => by rw [hcells l hl]
  now := htable.kept.1
  settle := by rw [htable.kept.2.2.2.2.2.2.1]
  window := by rw [htable.kept.2.2.2.2.2.2.1]

/-- The state a granted claim's evaluation starts from. -/
theorem Starts.claims {s : State} {n : HostId} {a : ClaimArgs} {i : SlotId} (hpasses : s.passes n a)
    (hfree : s.lowestFree i) (hgrant : s.grantsArrival n a) : Starts s (s.grantInto i (newRecord s n a)) := by
  have hidle (l : LineId) (hl : (newRecord s n a).names l = true) : ¬ s.lineHeld l :=
    (hgrant l (((newRecord s n a).names_iff l).mp hl)).1
  have hkeeps := (Record.Moved.granted (now := s.now) (settle := s.profile.settle) (window := 0)
    (r := newRecord s n a) rfl).keeps
  refine .of_birth hfree.1 (s.grantInto_slots i _) (.grantInto s i _) (fun k x hx howner => ?_) (fun _ l hl => ?_) fun l hl => ?_
  · rw [hkeeps.2.1]
    exact newRecord_ticket_ne hpasses hx (howner.trans hkeeps.1)
  · exact hidle l (by rwa [Record.granted_names] at hl)
  · exact s.grantInto_cell_ne i (Bool.eq_false_iff.mpr fun hnames => hidle l hnames hl)

/-- The state a queued claim's evaluation starts from. -/
theorem Starts.queues {s : State} {n : HostId} {a : ClaimArgs} {i : SlotId} (hpasses : s.passes n a)
    (hfree : s.lowestFree i) : Starts s (s.putRecord i (newRecord s n a)) :=
  .of_birth hfree.1 rfl (.putRecord s i _) (fun _ _ hx howner => newRecord_ticket_ne hpasses hx howner)
    (fun hlive => absurd rfl hlive) fun _ _ => rfl

/-- The state in which an edit of the profile's lines denies its records. -/
theorem Starts.tellRest (s : State) (es : List (LineId × LineProfile)) : Starts s ((s.storeLines es).tellRest es) where
  stands := fun _ _ hr => hr
  born := fun _ _ hw => .inl hw
  cells := fun l _ => by
    have hcell : ((s.storeLines es).tellRest es).cells.get l =
        if (entryFor es l).isSome then (s.cells.get l).present ((s.storeLines es).restOf l) else s.cells.get l :=
      Table.get_ofFn _ _
    rw [hcell]
    split <;> rfl
  now := rfl
  settle := rfl
  window := rfl

/-- The records of a host are gone once they are freed (R9). -/
theorem State.freeHost_gone (s : State) (n : HostId) : ∀ j, ∀ r ∈ (s.freeHost n).slots.get j, r.owner ≠ n :=
  fun _ _ hr => s.freeHost_slots n hr

/-- Every effect goes one of these ways. -/
theorem Effect.route {c : Instr} {s t : State} (h : Effect c s t) : Route s t := by
  cases h with
  | stands | rises | beats | unparks | fetches | bonds | editsHost | times | commits | unblanks | closes => exact .of_slots rfl
  | falls dt _ _ h =>
    obtain rfl := Host.Outcome.next.inj h
    refine .stays fun j r _ r' hr' => ?_
    rw [Table.get_fill] at hr'
    cases hr'
  | begins dt n p => exact .of_slots (sameTable.beginSession s n p).1
  | restarts dt n p =>
    exact .of_freeHost (u := s) (.of_eq rfl rfl rfl ⟨rfl, rfl⟩) n (.restarts (s.freeHost_gone n) _)
  | detaches dt n =>
    exact .of_freeHost (u := s.putSession n _) (.of_eq rfl rfl rfl ⟨rfl, rfl⟩) n (.detaches (State.freeHost_gone _ n))
  | lapses n =>
    exact .of_freeHost (u := s.putSession n _) (.of_eq rfl rfl rfl ⟨rfl, rfl⟩) n (.lapses (State.freeHost_gone _ n) _)
  | claims dt n p a i _ hr hstate hargs hchecks hfree hgrant =>
    have hstarts := Starts.claims ((claimRefusal_eq_none s n a).mp hchecks) ((freeSlot_eq_some s i).mp hfree)
      ((arrivalGrantable_iff s n a).mp hgrant)
    have ⟨l, hrun⟩ := (s.grantInto i (newRecord s n a)).eligibility_run_self .released
    exact .runs .released _ _ l hstarts hrun (.refl _)
  | queues dt n p a i _ hr hstate hargs hchecks hfree hwait =>
    have hstarts := Starts.queues ((claimRefusal_eq_none s n a).mp hchecks) ((freeSlot_eq_some s i).mp hfree)
    have ⟨l, hrun⟩ := (s.putRecord i (newRecord s n a)).evaluate_run_self .released
    exact .runs .released _ _ l hstarts hrun (.refl _)
  | releases | revokes | expires => exact .of_freeAll (u := s) (.of_eq rfl rfl rfl ⟨rfl, rfl⟩) _ _ (.refl _)
  | settles i r _ hrec hstate => exact .settles i r hrec hstate rfl
  | levels dt i r a _ hrec hp => exact .of_edit hrec rfl ⟨rfl, rfl, rfl⟩
  | reconfigures dt i r named _ hrec hp => exact .of_edit hrec rfl ⟨rfl, rfl, rfl⟩
  | editsLines dt es =>
    unfold State.applyLineProfile
    dsimp only
    split
    · exact .of_slots rfl
    · exact .of_freeAll (.tellRest s es) _ _ (.refl _)
  | votes dt n => exact .of_slots (voteSide.reopenVote s n).kept.2.2.1
  | clears dt n =>
    refine .stays fun j r _ r' hr' => ?_
    rw [State.clearAll_slots] at hr'
    cases hr'
  | samples levels => exact .of_slots (s.tick_slots levels)
  | failsVote => exact .of_slots (voteSide.failVote s _).kept.2.2.1

end Sys2Proof.Machine
end

section
/-! SUPPORT. Preemption (chapter 3): what eligible preemptors ask of the records, that every effect leaves the records YIELDING exactly
while one faces them, and what a passage between HELD and YIELDING brings. -/

namespace Sys2Proof.Machine

/-! ## What a record asks -/

/-- What a record asks of the others: its lines, its place in the order, whether it preempts and whether it waits (R27, R50). -/
def Record.asks (r : Record) : List LineId × Fin 4 × Nat × Bool × Bool :=
  (r.lines.map fun e => e.line, r.priority, r.entry, r.preempt, r.state == .waiting)

/-- Records that ask alike name the same lines, in the same place. -/
theorem Record.asks_eq {r r' : Record} (h : r'.asks = r.asks) :
    (∀ l, r'.names l = r.names l) ∧ r'.priority = r.priority ∧ r'.entry = r.entry ∧ r'.preempt = r.preempt
      ∧ (r'.state = .waiting ↔ r.state = .waiting) := by
  simp only [Record.asks, Prod.mk.injEq] at h
  obtain ⟨hlines, hpriority, hentry, hpreempt, hstate⟩ := h
  have names (x : Record) (l : LineId) : x.names l = (x.lines.map fun e => e.line).contains l := by
    rw [Bool.eq_iff_iff, Record.names_iff]
    simp
  refine ⟨fun l => by rw [names, names, hlines], hpriority, hentry, hpreempt, ?_⟩
  rw [← beq_iff_eq (a := r'.state), hstate, beq_iff_eq]

/-- The records of `s` and `t` ask alike, slot by slot. -/
def State.asksAs (s t : State) : Prop :=
  ∀ j, (t.slots.get j).map Record.asks = (s.slots.get j).map Record.asks

/-- What asks alike asks alike the other way. -/
theorem State.asksAs.symm {s t : State} (h : s.asksAs t) : t.asksAs s := fun j => (h j).symm

/-- The record that asks alike. -/
theorem State.asksAs.get {s t : State} (h : s.asksAs t) {j : SlotId} {r : Record} (hr : s.slots.get j = some r) :
    ∃ r', t.slots.get j = some r' ∧ r'.asks = r.asks := by
  have hj := h j
  rw [hr] at hj
  exact Option.map_eq_some_iff.mp hj

/-- An eligible preemptor stays one where the records ask alike. -/
theorem State.isPreemptor.of_asks {s t : State} (h : s.asksAs t) {i : SlotId} {r r' : Record} (hr : r'.asks = r.asks)
    (hs : s.isPreemptor i r) : t.isPreemptor i r' := by
  obtain ⟨hnames, hpriority, hentry, hpreempt, hstate⟩ := Record.asks_eq hr
  obtain ⟨hwaiting, hp, hlines⟩ := hs
  refine ⟨hstate.mpr hwaiting, hpreempt.trans hp, fun l hl => ?_⟩
  obtain ⟨hfirst, hlower⟩ := hlines l (hnames l ▸ hl)
  constructor
  · intro j w hw hji hwwaiting hwl
    obtain ⟨w', hw', hasks⟩ := h.symm.get hw
    obtain ⟨hwnames, hwpriority, hwentry, _, hwstate⟩ := Record.asks_eq hasks
    have hbefore := hfirst j w' hw' hji (hwstate.mpr hwwaiting) ((hwnames l).trans hwl)
    rw [Record.before, hpriority, hentry, ← hwpriority, ← hwentry]
    exact hbefore
  · intro j w hw hlive hwl
    obtain ⟨w', hw', hasks⟩ := h.symm.get hw
    obtain ⟨hwnames, hwpriority, _, _, hwstate⟩ := Record.asks_eq hasks
    rw [hpriority, ← hwpriority]
    exact hlower j w' hw' (fun hx => hlive (hwstate.mp hx)) ((hwnames l).trans hwl)

/-- A slot holds an eligible preemptor in both where the records ask alike. -/
theorem State.asksAs.exists_isPreemptor {s t : State} (h : s.asksAs t) (i : SlotId) :
    (∃ r ∈ s.slots.get i, s.isPreemptor i r) ↔ ∃ r ∈ t.slots.get i, t.isPreemptor i r := by
  constructor
  · rintro ⟨r, hr, hp⟩
    obtain ⟨r', hr', hasks⟩ := h.get hr
    exact ⟨r', hr', State.isPreemptor.of_asks h hasks hp⟩
  · rintro ⟨r, hr, hp⟩
    obtain ⟨r', hr', hasks⟩ := h.symm.get hr
    exact ⟨r', hr', State.isPreemptor.of_asks h.symm hasks hp⟩

/-- A record that faces a preemptor faces one still where the records ask alike. -/
theorem State.facesPreemptor.of_asks {s t : State} (h : s.asksAs t) {r r' : Record} (hr : r'.asks = r.asks)
    (hs : s.facesPreemptor r) : t.facesPreemptor r' := by
  obtain ⟨j, w, hw, hpreemptor, l, hwl, hrl⟩ := hs
  obtain ⟨w', hw', hasks⟩ := h.get hw
  exact ⟨j, w', hw', State.isPreemptor.of_asks h hasks hpreemptor, l, ((Record.asks_eq hasks).1 l).trans hwl,
    ((Record.asks_eq hr).1 l).trans hrl⟩

/-! ## The set kept -/

/-- In a table with distinct entries the set computed is that of the eligible preemptors (R50). -/
theorem State.isEligible_iff_isPreemptor {s : State} (hs : s.entriesDistinct) {i : SlotId} {r : Record}
    (hr : s.slots.get i = some r) : isEligible s.slots i r = true ↔ s.isPreemptor i r := by
  rw [isEligible_iff]
  refine and_congr_right fun hwaiting => and_congr_right fun _ => forall₂_congr fun l hl => and_congr_left' ?_
  constructor
  · intro hhead j w hw hji hwwaiting hwl
    obtain ⟨x, hx, _, _, hfirst⟩ := State.first_of_headOf hhead
    obtain rfl := Option.some.inj (hr.symm.trans hx)
    have hnot := hfirst j w hw hwwaiting hwl
    have hentry : r.entry ≠ w.entry := fun he => hji (hs i r hr j w hw he).symm
    simp only [Record.before, not_or, not_and, not_lt] at hnot ⊢
    rcases lt_or_eq_of_le hnot.1 with hlt | heq
    · exact .inl hlt
    · exact .inr ⟨heq.symm, lt_of_le_of_ne (hnot.2 heq) hentry⟩
  · intro hfirst
    refine State.headOf_of_first hs hr hwaiting hl fun j w hw hji hwwaiting hwl hbefore => ?_
    have h := hfirst j w hw hji hwwaiting hwl
    simp only [Record.before] at h hbefore
    omega

/-- The set computed, in a table with distinct entries. -/
theorem State.mem_eligibleSet_iff {s : State} (hs : s.entriesDistinct) (i : SlotId) :
    i ∈ eligibleSet s.slots ↔ ∃ r ∈ s.slots.get i, s.isPreemptor i r := by
  rw [mem_eligibleSet]
  exact exists_congr fun r => and_congr_right fun hr => s.isEligible_iff_isPreemptor hs hr

/-- The test of R51 against a set that is that of the eligible preemptors. -/
theorem State.demanded_iff_faces {s : State} {el : List SlotId}
    (hel : ∀ i, i ∈ el ↔ ∃ r ∈ s.slots.get i, s.isPreemptor i r) (r : Record) :
    demanded s.slots el r = true ↔ s.facesPreemptor r := by
  rw [demanded_iff]
  constructor
  · rintro ⟨j, hj, w, hw, l, hrl, hwl⟩
    obtain ⟨x, hx, hpreemptor⟩ := (hel j).mp hj
    obtain rfl := Option.some.inj (hw.symm.trans hx)
    exact ⟨j, w, hw, hpreemptor, l, hwl, hrl⟩
  · rintro ⟨j, w, hw, hpreemptor, l, hwl, hrl⟩
    exact ⟨j, (hel j).mpr ⟨w, hw, hpreemptor⟩, w, hw, l, hrl, hwl⟩

/-! ## The evaluations leave yields right -/

/-- Where the set kept stands and the records ask alike, yields stay right so long as a record changes its state only to the one that
fits. -/
theorem State.yieldsRight.of_asks {s t : State} (hs : s.yieldsRight) (h : s.asksAs t) (hel : ∀ i, i ∈ t.eligible ↔ i ∈ s.eligible)
    (hstate : ∀ j r r', s.slots.get j = some r → t.slots.get j = some r' →
      r'.state = r.state ∨ (r'.state = .yielding ∧ s.facesPreemptor r) ∨ (r'.state = .held ∧ ¬ s.facesPreemptor r)) :
    t.yieldsRight := by
  obtain ⟨hset, hrecords⟩ := hs
  constructor
  · exact fun i => (hel i).trans ((hset i).trans (h.exists_isPreemptor i))
  · intro j r' hr'
    obtain ⟨r, hr, hasks⟩ := h.symm.get hr'
    have hfaces : t.facesPreemptor r' ↔ s.facesPreemptor r :=
      ⟨State.facesPreemptor.of_asks h.symm hasks, State.facesPreemptor.of_asks h hasks.symm⟩
    rw [hfaces]
    rcases hstate j r r' hr hr' with heq | ⟨heq, hf⟩ | ⟨heq, hf⟩
    · rw [heq]
      exact hrecords j r hr
    · exact ⟨fun _ => hf, fun hheld => by rw [heq] at hheld; cases hheld⟩
    · exact ⟨fun hy => (by rw [heq] at hy; cases hy), fun _ => hf⟩

/-- Where table and set stand, yields stay right. -/
theorem State.yieldsRight.of_eq {s t : State} (hs : s.yieldsRight) (hslots : t.slots = s.slots) (hel : t.eligible = s.eligible) :
    t.yieldsRight :=
  hs.of_asks (fun j => by rw [hslots]) (fun i => by rw [hel]) fun j r r' hr hr' =>
    .inl (by rw [hslots, hr] at hr'; rw [Option.some.inj hr'])

/-- What the test of R51 leaves asks alike. -/
theorem Record.answers_asks (r : Record) (d : Bool) (now window : Nat) : (r.answers d now window).asks = r.asks := by
  rcases r.answers_cases d now 0 window with h | h
  · rw [h]
  · obtain ⟨_, _, hpriority, hentry, hlines, hpreempt, _⟩ := h.keeps
    have hlive := h.live
    have hnot : (r.state == .waiting) = false := by
      unfold Record.answers at h
      split at h
      · simp [*]
      · split at h
        · simp [*]
        · exact h.ne.elim
    simp only [Record.asks, hpriority, hentry, hlines, hpreempt, hnot, beq_eq_false_iff_ne.mpr hlive]

/-- A YIELDING record the test leaves faces the demand, and a HELD one does not (R51). -/
theorem Record.answers_state (r : Record) (d : Bool) (now window : Nat) :
    ((r.answers d now window).state = .yielding → d = true) ∧ ((r.answers d now window).state = .held → d = false) := by
  unfold Record.answers
  split
  · rename_i h
    exact ⟨fun _ => h.2, fun hx => by cases hx⟩
  · split
    · rename_i h
      exact ⟨fun hx => (by cases hx), fun _ => h.2⟩
    · rename_i h1 h2
      cases d with
      | true => exact ⟨fun _ => rfl, fun hheld => absurd ⟨hheld, rfl⟩ h1⟩
      | false => exact ⟨fun hyielding => absurd ⟨hyielding, rfl⟩ h2, fun _ => rfl⟩

/-- An eligibility evaluation of a table with distinct entries leaves yields right (R50 to R52). -/
theorem State.yieldsRight_eligibility {s : State} (hs : s.entriesDistinct) : s.eligibility.yieldsRight := by
  have halike : s.asksAs s.eligibility := fun j => by
    rw [State.eligibility_slots, Option.map_map]
    congr 1
    exact funext fun r => r.answers_asks _ _ _
  have hset := State.mem_eligibleSet_iff hs
  constructor
  · intro i
    rw [State.eligibility_eligible]
    exact (hset i).trans (halike.exists_isPreemptor i)
  · intro j r' hr'
    rw [State.eligibility_slots] at hr'
    obtain ⟨r, hr, rfl⟩ := Option.map_eq_some_iff.mp hr'
    obtain ⟨hyielding, hheld⟩ := r.answers_state (demanded s.slots (eligibleSet s.slots) r) s.now s.profile.yieldWindow
    have hfaces := State.demanded_iff_faces hset r
    have hasks := r.answers_asks (demanded s.slots (eligibleSet s.slots) r) s.now s.profile.yieldWindow
    refine ⟨fun hy => State.facesPreemptor.of_asks halike hasks (hfaces.mp (hyielding hy)), fun hh hf => ?_⟩
    have := hfaces.mpr (State.facesPreemptor.of_asks halike.symm hasks.symm hf)
    rw [hheld hh] at this
    cases this

/-- So does a grant evaluation with the eligibility evaluation that follows it (R37). -/
theorem State.yieldsRight_evaluate {s : State} (hs : s.entriesDistinct) : s.evaluate.yieldsRight :=
  State.yieldsRight_eligibility (State.entriesDistinct_grantWalk hs)

/-- And so does a freeing (R7). -/
theorem State.yieldsRight_freeAll {s : State} (hs : s.entriesDistinct) (w : List SlotId) (cause : FreeCause) :
    (s.freeAll w cause).yieldsRight :=
  State.yieldsRight_evaluate <| State.entriesDistinct_of_subset hs fun i r hr => by
    rw [State.freeEach_slots] at hr
    split at hr
    · cases hr
    · exact hr

/-! ## The effects that evaluate after one record has changed -/

/-- A record entering HELD changes nothing it asks. -/
theorem State.asksAs_set {s t : State} {i : SlotId} {r r' : Record} (hr : s.slots.get i = some r)
    (ht : t.slots = s.slots.set i (some r')) (hasks : r'.asks = r.asks) : s.asksAs t := by
  intro j
  rw [ht, Table.get_set]
  split
  · rename_i hj
    rw [hj, hr, Option.map_some, Option.map_some, hasks]
  · rfl

/-- The test of R51 leaves a record that stands as the demand asks. -/
theorem Record.answers_of_right {r : Record} {d : Bool} (hyielding : r.state = .yielding → d = true)
    (hheld : r.state = .held → d = false) (now window : Nat) : r.answers d now window = r := by
  unfold Record.answers
  rw [if_neg fun h => ?_, if_neg fun h => ?_]
  · exact absurd (hyielding h.1) (by simp [h.2])
  · exact absurd (hheld h.1) (by simp [h.2])

/-- What a settle end leaves where yields are right: the record YIELDING where it faces a preemptor and HELD where it faces none, and
every other as it was (R45, R54). -/
theorem State.settleEnd_slots_right {s : State} (hdistinct : s.entriesDistinct) (hs : s.yieldsRight) {i : SlotId} {r : Record}
    (hr : s.slots.get i = some r) (hstate : r.state = .settling) (j : SlotId) :
    (s.settleEnd i r).slots.get j =
      if j = i then
        some (if demanded s.slots s.eligible r then r.inYielding s.now s.profile.yieldWindow else r.inHeld)
      else s.slots.get j := by
  have hfaced := State.demanded_iff_faces hs.1 r
  cases hd : demanded s.slots s.eligible r with
  | true => exact State.settleEnd_slots_faced hd j
  | false =>
    rw [State.settleEnd_slots hd hr]
    let u : State := { s with slots := s.slots.set i (some r.inHeld) }
    have halike : s.asksAs u := State.asksAs_set hr rfl (by simp [Record.asks, Record.inHeld, hstate])
    have hu : u.entriesDistinct := State.entriesDistinct_set hdistinct rfl fun k hk w hw he => hk (hdistinct k w hw i r hr he)
    have hfaces (w : Record) : demanded s.slots (eligibleSet u.slots) w = true ↔ s.facesPreemptor w :=
      State.demanded_iff_faces (fun k => (State.mem_eligibleSet_iff hu k).trans (halike.exists_isPreemptor k).symm) w
    by_cases hj : j = i
    · have hnot : demanded s.slots (eligibleSet u.slots) r.inHeld = false := by
        rw [Bool.eq_false_iff, Ne, hfaces]
        exact fun hf => absurd (hfaced.mpr hf) (by simp [hd])
      simp only [if_pos hj, Option.map_some]
      rw [hnot, Record.answers_of_held (.inr rfl)]
      rfl
    · simp only [if_neg hj]
      cases hw : s.slots.get j with
      | none => rfl
      | some w =>
        obtain ⟨hyielding, hheld⟩ := hs.2 j w hw
        rw [Option.map_some, Record.answers_of_right (fun h => (hfaces w).mpr (hyielding h))
          fun h => Bool.eq_false_iff.mpr fun hdw => hheld h ((hfaces w).mp hdw)]

end Sys2Proof.Machine
end

section
/-! SUPPORT. Preemption through every command: yields stay right, and a record that passes between HELD and YIELDING passes whole
(chapter 3). -/

namespace Sys2Proof.Machine

/-! ## Yields through every effect -/

/-- The deadline of a record that faces a preemptor or none brings the state that fits (R45, R54). -/
theorem State.yieldsRight.settleEnd {s : State} (hs : s.yieldsRight) (hdistinct : s.entriesDistinct) {i : SlotId} {r : Record}
    (hrec : s.slots.get i = some r) (hstate : r.state = .settling) : (s.settleEnd i r).yieldsRight := by
  cases hd : demanded s.slots s.eligible r with
  | true =>
    have hslots := State.settleEnd_slots_faced (i := i) hd
    have hfaces := (State.demanded_iff_faces hs.1 r).mp hd
    refine hs.of_asks (fun j => ?_) (fun j => ?_) fun j w w' hw hw' => ?_
    · rw [hslots]
      split
      · rename_i hj
        rw [hj, hrec, Option.map_some, Option.map_some]
        exact congrArg some (by simp [Record.asks, Record.inHeld, Record.inYielding, hstate])
      · rfl
    · rw [State.settleEnd, if_pos hd]
      rfl
    · rw [hslots] at hw'
      split at hw'
      · rename_i hj
        subst hj
        obtain rfl := Option.some.inj (hrec.symm.trans hw)
        obtain rfl := Option.some.inj hw'
        exact .inr (.inl ⟨rfl, hfaces⟩)
      · obtain rfl := Option.some.inj (hw.symm.trans hw')
        exact .inl rfl
  | false =>
    rw [State.settleEnd, if_neg (by simp [hd])]
    exact State.yieldsRight_eligibility <| State.entriesDistinct_set (s := s) (i := i) (r := r.inHeld) hdistinct rfl
      fun k hk w hw he => hk (hdistinct k w hw i r hrec he)

/-- A record whose settings are replaced asks and faces what it did (R84, R85). -/
theorem State.yieldsRight.edit {s t : State} (hs : s.yieldsRight) {i : SlotId} {r : Record} (hrec : s.slots.get i = some r)
    (f : Nat → Setting → Setting) (hslots : t.slots = s.slots.set i (some { r with lines := editEntries f r.lines }))
    (hel : t.eligible = s.eligible) : t.yieldsRight := by
  refine hs.of_asks (State.asksAs_set hrec hslots ?_) (fun j => by rw [hel]) fun j w w' hw hw' => .inl ?_
  · simp only [Record.asks, editEntries_lines]
  · rw [hslots, Table.get_set] at hw'
    split at hw'
    · rename_i hj
      subst hj
      obtain rfl := Option.some.inj (hrec.symm.trans hw)
      obtain rfl := Option.some.inj hw'
      rfl
    · rw [Option.some.inj (hw.symm.trans hw')]

/-- No record, no preemptor: an empty table with an empty set is right. -/
theorem State.yieldsRight_of_empty {s : State} (hslots : ∀ i, s.slots.get i = none) (hel : s.eligible = []) : s.yieldsRight := by
  have hnone {i : SlotId} {r : Record} (hr : r ∈ s.slots.get i) : False := by rw [hslots] at hr; cases hr
  exact ⟨fun i => by rw [hel]; exact ⟨fun h => (by cases h), fun ⟨r, hr, _⟩ => (hnone hr).elim⟩, fun i r hr => (hnone hr).elim⟩

/-- A record of the next entry number keeps entry numbers distinct (R14). -/
theorem State.entriesDistinct_birth {s t : State} (hs : s.entriesDistinct) {i : SlotId} {r : Record}
    (ht : t.slots = s.slots.set i (some r)) (hentry : r.entry = nextEntry s.slots) : t.entriesDistinct :=
  State.entriesDistinct_set hs ht fun _ _ _ hw => hentry ▸ (entry_lt_nextEntry hw).ne

/-- Every effect leaves yields right (R50 to R52). -/
theorem Effect.yieldsRight {c : Instr} {s t : State} (h : Effect c s t) (hdistinct : s.entriesDistinct) (hs : s.yieldsRight) :
    t.yieldsRight := by
  have freed {u v : State} (w : List SlotId) (cause : FreeCause) (hu : u.slots = s.slots) (hv : sameTable (u.freeAll w cause) v) :
      v.yieldsRight :=
    (State.yieldsRight_freeAll (State.entriesDistinct_of_subset hdistinct fun _ _ hr => hu ▸ hr) w cause).of_eq hv.1 hv.2.1
  cases h with
  | stands | rises | beats | unparks | fetches | bonds | editsHost | times | commits | unblanks | closes => exact hs
  | falls dt _ _ h =>
    obtain rfl := Host.Outcome.next.inj h
    exact State.yieldsRight_of_empty (fun i => Table.get_fill _ _ _) rfl
  | begins dt n p => exact hs.of_eq (sameTable.beginSession s n p).1 (sameTable.beginSession s n p).2.1
  | restarts dt n p => exact freed (u := s) _ _ rfl (sameTable.restartSession s n p)
  | detaches dt n => exact freed (u := s.putSession n _) _ _ rfl (sameTable.detachAttached s n)
  | lapses n => exact freed (u := s.putSession n _) _ _ rfl (sameTable.lapse s n)
  | claims dt n p a i =>
    exact State.yieldsRight_eligibility (State.entriesDistinct_birth hdistinct (s.grantInto_slots i _) (Record.granted_entry _ _ _))
  | queues dt n p a i =>
    exact State.yieldsRight_evaluate (State.entriesDistinct_birth hdistinct (s.putRecord_slots i _) rfl)
  | releases | revokes | expires => exact State.yieldsRight_freeAll hdistinct _ _
  | settles i r _ hrec hstate => exact hs.settleEnd hdistinct hrec hstate
  | levels dt i r a _ hrec => exact hs.edit hrec _ rfl rfl
  | reconfigures dt i r named _ hrec => exact hs.edit hrec _ rfl rfl
  | editsLines dt es =>
    unfold State.applyLineProfile
    dsimp only
    split
    · exact hs
    · exact State.yieldsRight_freeAll (s := (s.storeLines es).tellRest es) hdistinct _ _
  | votes dt n => exact hs.of_eq (voteSide.reopenVote s n).kept.2.2.1 (voteSide.reopenVote s n).kept.2.2.2.1
  | clears dt n => exact freed (u := s.cleared n) _ _ (sameTable.cleared s n).1 (sameTable.clearAll s n)
  | samples levels => exact hs.of_eq (s.tick_slots levels) (by rw [s.tick_frame])
  | failsVote => exact hs.of_eq (voteSide.failVote s _).kept.2.2.1 (voteSide.failVote s _).kept.2.2.2.1

/-! ## Passages -/

/-- What the step from `s` to `t` makes of the record `r` of slot `i` where it stays YIELDING or passes between HELD and YIELDING (R53,
R55, R56, R73). -/
def passesWhole (s t : State) (i : SlotId) (r r' : Record) : Prop :=
  (r.state = .yielding → r'.state = .yielding → r'.deadline = r.deadline ∧ r'.span = r.span)
    ∧ ((r.state = .held ∧ r'.state = .yielding) ∨ (r.state = .yielding ∧ r'.state = .held) →
      r' = (if r'.state = .yielding then r.inYielding t.now t.profile.yieldWindow else r.inHeld)
        ∧ (s.owns r.owner r.ticket i r →
            t.noticeOf r.owner r.ticket = some (if r'.state = .yielding then .revokeNotice else .revokeWithdrawn))
        ∧ (s.cellsMatch i r →
            (∀ j, ∀ w ∈ s.slots.get j, j ≠ i → w.state ≠ .waiting → ∀ l, r.names l = true → w.names l = false) →
            ∀ e ∈ r.lines, t.cells.get e.line =
              { s.cells.get e.line with
                holder := some { slot := i, owner := r.owner, ticket := r.ticket, state := r'.state }
                presented := (t.cells.get e.line).presented }))

/-- A record that keeps its state and its deadline makes no passage. -/
theorem passesWhole.of_stays {s t : State} {i : SlotId} {r r' : Record}
    (h : r'.state = r.state ∧ r'.deadline = r.deadline ∧ r'.span = r.span) : passesWhole s t i r r' := by
  obtain ⟨hstate, hdeadline, hspan⟩ := h
  refine ⟨fun _ _ => ⟨hdeadline, hspan⟩, ?_⟩
  rintro (⟨h1, h2⟩ | ⟨h1, h2⟩) <;> simp [hstate, h1] at h2

/-- Nor does one that leaves SETTLING or WAITING. -/
theorem passesWhole.of_new {s t : State} {i : SlotId} {r r' : Record} (h : r.state = .settling ∨ r.state = .waiting) :
    passesWhole s t i r r' := by
  refine ⟨fun hy => by simp [hy] at h, ?_⟩
  rintro (⟨h1, _⟩ | ⟨h1, _⟩) <;> simp [h1] at h

section
variable {cause : FreeCause} {s u w t : State} {m : List SlotId} {i : SlotId} {r r' : Record}

/-- In a run, the notice of a ticket its owner has one record of is the one that record's move leaves. -/
theorem TableRun.notice_moved (hstarts : Starts s u) (hrun : TableRun cause u m w) (hends : Ends w t) (hi : i ∈ m)
    (howns : s.owns r.owner r.ticket i r) (hr' : t.slots.get i = some r') (howner : r'.owner = r.owner) :
    t.noticeOf r.owner r.ticket = r.movedNotice cause u.profile.settle (some r') (u.noticeOf r.owner r.ticket) := by
  obtain ⟨hr, _, _, halone⟩ := howns
  have hself := hrun.notice_self hi (hstarts.stands i r hr) fun j _ x hx hxowner hxticket => by
    rcases hstarts.born j x hx with hstood | ⟨hticket, _⟩
    · exact halone j x hstood hxowner hxticket
    · exact absurd hxticket.symm (hticket i r hr hxowner.symm)
  rw [← hends.slots, hr'] at hself
  have hnotice := hends.notices i r' hr' r.ticket
  rw [howner] at hnotice
  exact hnotice.trans hself

/-- In a run, the cells of a live record that stays are told its state alone. -/
theorem TableRun.cell_told (hstarts : Starts s u) (hrun : TableRun cause u m w) (hends : Ends w t) (hi : i ∈ m)
    (hr : s.slots.get i = some r) (hlive : r.state ≠ .waiting) (hr' : t.slots.get i = some r')
    (halone : ∀ j, ∀ w ∈ s.slots.get j, j ≠ i → w.state ≠ .waiting → ∀ l, r.names l = true → w.names l = false)
    {l : LineId} (hl : r.names l = true) {x : Holder} (hholder : (s.cells.get l).holder = some x) :
    t.cells.get l =
      { s.cells.get l with holder := some { x with state := r'.state }, presented := (t.cells.get l).presented } := by
  have hheld : s.lineHeld l := ⟨i, r, hr, hlive, hl⟩
  have hcell := hrun.cell_passed hi (hstarts.stands i r hr) hlive (hends.slots ▸ hr') hl fun j y hy hji hylive => by
    rcases hstarts.born j y hy with hstood | ⟨_, hidle⟩
    · exact halone j y hstood hji hylive l hl
    · exact Bool.eq_false_iff.mpr fun hyl => hidle hylive l hyl hheld
  rw [hends.cells, hcell, hstarts.cells l hheld]
  simp only [Cell.pass, Cell.present, hholder, Option.map_some]

/-- In a run, a record that passes passes whole. -/
theorem TableRun.passesWhole (hstarts : Starts s u) (hrun : TableRun cause u m w) (hends : Ends w t)
    (hr : s.slots.get i = some r) (hr' : t.slots.get i = some r') : passesWhole s t i r r' := by
  have hur := hstarts.stands i r hr
  have hwr : w.slots.get i = some r' := hends.slots ▸ hr'
  obtain ⟨x, hx, heq | ⟨hi, hmoved⟩⟩ := hrun.some_of_some hwr <;> obtain rfl := Option.some.inj (hur.symm.trans hx)
  · exact .of_stays (by rw [heq]; exact ⟨rfl, rfl, rfl⟩)
  have hnow : t.now = u.now := hends.now.trans hrun.tableOnly.kept.1
  have hwindow : t.profile.yieldWindow = u.profile.yieldWindow := by
    rw [hends.window, hrun.tableOnly.kept.2.2.2.2.2.2.1]
  have hnotice (howns : s.owns r.owner r.ticket i r) := TableRun.notice_moved hstarts hrun hends hi howns hr' hmoved.keeps.1
  have hcells (hlive : r.state ≠ .waiting) (hmatch : s.cellsMatch i r) (halone) (e : LineEntry) (he : e ∈ r.lines) :=
    TableRun.cell_told hstarts hrun hends hi hr hlive hr' halone ((r.names_iff _).mpr ⟨e, he, rfl⟩) (hmatch.2 e he).1
  rcases hmoved.remains with ⟨hwaiting, _⟩ | ⟨hheld, rfl⟩ | ⟨hyielding, rfl⟩
  · exact .of_new (.inr hwaiting)
  · refine ⟨fun hy => by simp [hheld] at hy, fun _ => ⟨?_, fun howns => ?_, fun hmatch halone e he => ?_⟩⟩
    · rw [hnow, hwindow]
      rfl
    · rw [hnotice howns]
      simp [Record.movedNotice, hheld, Record.inYielding]
    · exact hcells (by simp [hheld]) hmatch halone e he
  · refine ⟨fun _ hy => (by cases hy), fun _ => ⟨rfl, fun howns => ?_, fun hmatch halone e he => ?_⟩⟩
    · rw [hnotice howns]
      simp [Record.movedNotice, hyielding, Record.inHeld]
    · exact hcells (by simp [hyielding]) hmatch halone e he

end

/-- Every effect passes records whole where entry numbers are distinct and yields are right. -/
theorem Effect.passesWhole {c : Instr} {s t : State} (h : Effect c s t) (hdistinct : s.entriesDistinct) (hs : s.yieldsRight)
    {i : SlotId} {r r' : Record} (hr : s.slots.get i = some r) (hr' : t.slots.get i = some r') :
    Machine.passesWhole s t i r r' := by
  cases h.route with
  | stays h => exact .of_stays (h i r hr r' hr')
  | runs cause u w l hstarts hrun hends => exact hrun.passesWhole hstarts hends hr hr'
  | settles k x hrec hstate h =>
    rw [h, State.settleEnd_slots_right hdistinct hs hrec hstate] at hr'
    split at hr'
    · rename_i hk
      subst hk
      obtain rfl := Option.some.inj (hrec.symm.trans hr)
      exact .of_new (.inl hstate)
    · obtain rfl := Option.some.inj (hr.symm.trans hr')
      exact .of_stays ⟨rfl, rfl, rfl⟩

/-- A command leaves yields right, and passes records whole. -/
theorem does.yields {c : Instr} {s t : State} (h : does c s t) (hdistinct : s.entriesDistinct) (hs : s.yieldsRight) :
    t.yieldsRight ∧ ∀ i, ∀ r ∈ s.slots.get i, ∀ r' ∈ t.slots.get i, passesWhole s t i r r' := by
  obtain ⟨u, v, w, hu, hv, hw, ht, hnow⟩ := h
  obtain ⟨_, _, _, _, hslots, hel, hcells, _⟩ := hu.kept
  obtain ⟨_, _, _, _, hslots', hel', hcells', hboards', hprofile', _⟩ := ht.kept
  have hvslots : v.slots = s.slots := by rw [hv.frame, hslots]
  have hvdistinct : v.entriesDistinct := State.entriesDistinct_of_subset hdistinct fun _ _ hr => hvslots ▸ hr
  have hvright : v.yieldsRight := hs.of_eq hvslots (by rw [hv.frame, hel])
  refine ⟨(hw.yieldsRight hvdistinct hvright).of_eq hslots' hel', fun i r hr r' hr' => ?_⟩
  have hwhole := hw.passesWhole hvdistinct hvright (i := i) (hvslots ▸ hr) (hslots' ▸ hr')
  have hvcells : v.cells = s.cells := by rw [hv.frame, hcells]
  simp only [Machine.passesWhole, State.noticeOf, State.owns, State.cellsMatch, hvslots, hvcells] at hwhole
  simp only [Machine.passesWhole, State.noticeOf, State.owns, State.cellsMatch, hnow, hprofile', hboards', hcells']
  exact hwhole

/-- Settles O57: an eligibility evaluation puts every record where the preemptors want it (`State.yieldsRight_eligibility`), the other
effects leave what is asked as it was, and records pass in runs alone. -/
theorem everyStepYieldsToPreemptors : Obligations.EveryStepYieldsToPreemptors := by
  intro s t hdistinct hs hstep
  rcases step_effect hstep with rfl | ⟨c, rest, hdoes⟩
  · refine ⟨hs, fun i r hr r' hr' => passesWhole.of_stays ?_⟩
    obtain rfl := Option.some.inj (hr.symm.trans hr')
    exact ⟨rfl, rfl, rfl⟩
  · exact hdoes.yields hdistinct hs

end Sys2Proof.Machine
end

section
/-! SUPPORT. What a freeing leaves (R7, R8): the records freed, their notices, line flags and lines, and all that stands. RELEASE, YIELD_END
and WAIT_END free one record (R23, R41, R58). -/

namespace Sys2Proof.Machine

/-! ## The records a run frees -/

section
variable {cause : FreeCause} {s t : State} {m : List SlotId}

/-- A record that is gone after a run is one that moved. -/
theorem TableRun.mem_of_gone (h : TableRun cause s m t) {i : SlotId} {r : Record} (hr : s.slots.get i = some r)
    (hnone : t.slots.get i = none) : i ∈ m := by
  by_contra hi
  rw [h.slots_ne hi, hr] at hnone
  cases hnone

/-- The line flags of a record that is gone are cleared (R7). -/
theorem TableRun.clearOf_gone (h : TableRun cause s m t) {i : SlotId} {r : Record} (hr : s.slots.get i = some r)
    (hnone : t.slots.get i = none) : (t.boards.get r.owner).clearOf r :=
  h.clearOf (h.mem_of_gone hr hnone) hr hnone

/-- The notice left for the ticket of a record that is gone (R8). -/
theorem TableRun.notice_gone (h : TableRun cause s m t) {i : SlotId} {r : Record} (howns : s.owns r.owner r.ticket i r)
    (hnone : t.slots.get i = none) (hcause : cause ≠ .sessionEnd ∧ cause ≠ .clearAll) :
    t.noticeOf r.owner r.ticket = causeNotice cause := by
  obtain ⟨hr, _, _, halone⟩ := howns
  rw [h.notice_self (h.mem_of_gone hr hnone) hr fun j _ w hw howner hticket => halone j w hw howner hticket, hnone]
  simp only [Record.movedNotice]
  exact if_neg fun h => h.elim hcause.1 hcause.2

/-- A line of a live record that is gone is at rest where no WAITING record has taken it (R73): none that could is left, or none holds
it. -/
theorem TableRun.atRest_gone (h : TableRun cause s m t) {i : SlotId} {r : Record} (hr : s.slots.get i = some r)
    (hnone : t.slots.get i = none) (hlive : r.state ≠ .waiting) {l : LineId} (hl : r.names l = true)
    (hfree : (∀ j, ∀ w ∈ s.slots.get j, w.state = .waiting → w.names l = true → t.slots.get j = none) ∨ ¬ t.lineHeld l) :
    t.atRest l := by
  refine h.atRest (h.mem_of_gone hr hnone) hr hlive hnone hl fun j hj w hw hwaiting hwl => ?_
  rcases hfree with hleft | hidle
  · exact hleft j w hw hwaiting hwl
  · cases hw' : t.slots.get j with
    | none => rfl
    | some w' =>
      obtain ⟨x, hx, hmoved⟩ := h.moved hj
      obtain rfl := Option.some.inj (hw.symm.trans hx)
      rw [hw'] at hmoved
      refine absurd ⟨j, w', hw', hmoved.live, ?_⟩ hidle
      rw [Record.names_iff, hmoved.keeps.2.2.2.2.1, ← Record.names_iff]
      exact hwl

end

/-- A freeing loses the records it names, and no other (R7). -/
theorem State.recordsLost_freeAll {s t : State} {w : List SlotId} (h : ∀ j, t.slots.get j = none ↔ j ∈ w ∨ s.slots.get j = none) :
    recordsLost s t fun j _ => j ∈ w := by
  intro j r hr
  rw [h j, hr]
  simp

/-! ## One record freed -/

/-- What the freeing of the one record `r` of slot `i` leaves, in a run that frees it alone (R7, R73, R107, R108). -/
structure FreedAlone (s t : State) (i : SlotId) (r : Record) (notice : Option NoticeKind) : Prop where
  remain : recordsRemain s t
  lost : recordsLost s t fun j _ => j = i
  notice : t.noticeOf r.owner r.ticket = notice
  flags : (t.boards.get r.owner).clearOf r
  lines : r.state ≠ .waiting → ∀ l, r.names l = true → ¬ s.lineWanted l ∨ ¬ t.lineHeld l → t.atRest l
  cells : ∀ l, (∀ j, ∀ w ∈ s.slots.get j, j ≠ i → w.names l = false) → (r.state = .waiting ∨ r.names l = false) →
    t.cells.get l = s.cells.get l
  stand : cellsStand s t
  samples : samplesKept s t
  others : otherBoardsFollow s t r.owner
  boards : ∀ h, boardStands s t h

/-- A freeing of one record leaves that. -/
theorem State.freedAlone {s : State} {i : SlotId} {r : Record} (howns : s.owns r.owner r.ticket i r) {cause : FreeCause}
    (hcause : cause ≠ .sessionEnd ∧ cause ≠ .clearAll) : FreedAlone s (s.freeAll [i] cause) i r (causeNotice cause) := by
  obtain ⟨⟨m, hrun⟩, hgone⟩ := s.freeAll_run [i] cause
  generalize s.freeAll [i] cause = t at hrun hgone
  have hr : s.slots.get i = some r := howns.1
  have hnone : t.slots.get i = none := (hgone i).mpr (.inl (List.mem_singleton_self i))
  refine ⟨hrun.recordsRemain, ?_, hrun.notice_gone howns hnone hcause, hrun.clearOf_gone hr hnone, fun hlive l hl hfree => ?_,
    fun l hother hself => hrun.cell_ne fun j hj w hw hwl => ?_, hrun.cellsStand, hrun.tableOnly.2, hrun.otherBoardsFollow _,
    hrun.boardStands⟩
  · simpa using State.recordsLost_freeAll hgone
  · refine hrun.atRest_gone hr hnone hlive hl (hfree.imp_left fun hwanted j w hw hwaiting hwl => ?_)
    exact absurd ⟨j, w, hw, hwaiting, hwl⟩ hwanted
  · by_cases hji : j = i
    · subst hji
      obtain rfl := Option.some.inj (hr.symm.trans hw)
      exact ⟨hself.resolve_right (by simp [hwl]), hnone⟩
    · exact absurd hwl (by simp [hother j w hw hji])

/-! ## Answers after a change of the table -/

/-- A response posted leaves all but the ports. -/
theorem State.reply_of_eq {s t : State} (h : t = s) (n : HostId) (q : Request) (a : Answer) :
    t.reply n q a = { s with ports := (t.reply n q a).ports } :=
  congrArg (fun u : State => { u with ports := (t.reply n q a).ports }) h

/-- A response posted after a change of table, cells and boards leaves the rest of the state as it was. -/
theorem tableOnly.reply {s t : State} (h : tableOnly s t) (n : HostId) (q : Request) (a : Answer) :
    t.reply n q a =
      { s with
        ports := (t.reply n q a).ports, slots := t.slots, eligible := t.eligible, cells := t.cells, boards := t.boards } :=
  State.reply_of_eq h.1 n q a

/-! ## RELEASE -/

/-- The code of a record state, case by case (R161). -/
theorem RecState.code_eq (st : RecState) :
    st.code = match st with | .waiting => 1#8 | .settling => 2#8 | .held => 3#8 | .yielding => 4#8 := by
  cases st <;> rfl

/-- A RELEASE of a ticket its issuer has a record of frees that record (R23). -/
theorem handleRelease_of_owns {s : State} {n : HostId} {q : Request} {tk : Byte} {i : SlotId} {r : Record}
    (hpayload : q.payload = [tk]) (htk : tk ≠ 0#8) (howns : s.owns n tk i r) :
    handleRelease s n q = (s.freeAll [i] .released, { status := .ok, payload := [tk, r.state.code] }) := by
  simp only [handleRelease, hpayload, ticketArg, if_neg htk, State.findTicket_of_owns howns]

/-- Settles O29, by what the freeing of one record leaves. -/
theorem releaseFreesTheRecord : Obligations.ReleaseFreesTheRecord := by
  intro s dt n q tk i r htakes hpayload htk howns
  have hturn : (s.turn dt .release n).owns n tk i r := howns
  have hstep : exec (.release dt) s = .next (((s.turn dt .release n).freeAll [i] .released).reply n q
      { status := .ok, payload := [tk, r.state.code] }) := by
    refine congrArg Host.Outcome.next ((State.takeChosen_of_takes htakes dt _).trans ?_)
    rw [handleRelease_of_owns hpayload htk hturn]
  obtain ⟨_, rfl, rfl, _⟩ := howns
  have hfreed := State.freedAlone hturn (cause := .released) (by decide)
  have htable := tableOnly.freeAll (s.turn dt .release r.owner) [i] .released
  generalize (s.turn dt .release r.owner).freeAll [i] .released = v at hstep hfreed htable
  refine ⟨_, hstep, htable.reply _ q _, hfreed.remain, hfreed.lost, hfreed.notice, hfreed.flags, hfreed.lines,
    fun l hl => hfreed.cells l (fun j w hw _ => hl j w hw) ?_, hfreed.stand, hfreed.samples, hfreed.others, hfreed.boards,
    posts_reply htable.ports _ q (congrArg (fun x => [r.ticket, x]) (RecState.code_eq r.state))⟩
  exact .inr (hl i r hturn.1)

/-! ## Deadlines that free a record -/

/-- Settles O32, by what the freeing of one record leaves. -/
theorem deadlinesFreeRecords : Obligations.DeadlinesFreeRecords := by
  intro s c i r d k hr howns hd hcase
  have hrec : s.slots.get i = some r := howns.1
  have hreach : (s.reach d).owns r.owner r.ticket i r := howns
  have freed (cause : FreeCause) (hcause : cause ≠ .sessionEnd ∧ cause ≠ .clearAll) (hk : causeNotice cause = some k)
      (hstep : exec c s = .next ((s.reach d).freeAll [i] cause)) :
      ∃ t, exec c s = .next t ∧ tableOnly (s.reach d) t ∧ FreedAlone (s.reach d) t i r (some k) :=
    ⟨_, hstep, .freeAll _ _ _, hk ▸ State.freedAlone hreach hcause⟩
  have hfreed : ∃ t, exec c s = .next t ∧ tableOnly (s.reach d) t ∧ FreedAlone (s.reach d) t i r (some k) := by
    rcases hcase with ⟨rfl, hstate, rfl⟩ | ⟨rfl, hstate, rfl⟩
    · refine freed .revoked (by decide) rfl ?_
      simp only [exec, execYieldEnd, hr, hrec, hstate, hd]
    · refine freed .waitExpired (by decide) rfl ?_
      simp only [exec, execWaitEnd, hr, hrec, hstate, hd]
  obtain ⟨t, hstep, htable, hfreed⟩ := hfreed
  refine ⟨t, hstep, htable.1, hfreed.remain, hfreed.lost, hfreed.notice, hfreed.flags, fun hy => hfreed.lines (by simp [hy]),
    hfreed.cells, hfreed.stand, hfreed.samples, hfreed.others, hfreed.boards⟩

end Sys2Proof.Machine
end

section
/-! SUPPORT. Taking requests: the cyclic choice (R12, R83, R123), the recheck (R94), and the Session Unit's own kinds (R92, R93). -/

namespace Sys2Proof.Machine

/-! ## The choice among links -/

/-- The links in the order a block looks at them (R12). -/
theorem nextLink_eq (last : HostId) (p : HostId → Bool) :
    nextLink last p = ((List.finRange 4).find? fun k => p (last + 1 + k)).map fun k => last + 1 + k := by
  have horder : [last + 1, last + 2, last + 3, last] = (List.finRange 4).map fun k => last + 1 + k := by
    revert last
    decide
  rw [nextLink, horder, List.find?_map]
  rfl

/-- The link chosen is the first presenting one after the one served last, in cyclic order (R12). -/
theorem nextLink_eq_some (last n : HostId) (p : HostId → Bool) :
    nextLink last p = some n ↔ p n = true ∧ ∀ m, p m = true → n - (last + 1) ≤ m - (last + 1) := by
  rw [nextLink_eq, Option.map_eq_some_iff]
  constructor
  · rintro ⟨k, hk, rfl⟩
    obtain ⟨hp, hfirst⟩ := (find_finRange_eq_some _ _).mp hk
    refine ⟨hp, fun m hm => ?_⟩
    rw [add_sub_cancel_left]
    by_contra hlt
    have := hfirst (m - (last + 1)) (not_le.mp hlt)
    rw [add_sub_cancel, hm] at this
    cases this
  · rintro ⟨hp, hfirst⟩
    refine ⟨n - (last + 1), (find_finRange_eq_some _ _).mpr ⟨by rwa [add_sub_cancel], fun j hj => ?_⟩, add_sub_cancel _ _⟩
    refine Bool.eq_false_iff.mpr fun hpj => absurd (hfirst _ hpj) ?_
    rw [add_sub_cancel_left]
    exact not_le.mpr hj

/-! ## The blocks with an arbiter -/

/-- The commands of the blocks with an arbiter, and the kinds they take. -/
def arbitrated (dt : Nat) : List (Kind × Instr) :=
  [(.claim, .claim dt), (.release, .release dt), (.queryClaim, .queryClaim dt), (.setLevels, .setLevels dt),
    (.reconfigure, .reconfigure dt), (.clearFault, .clearFault dt), (.readLines, .readLines dt), (.queryLine, .queryLine dt),
    (.readProfile, .readProfile dt), (.setLineProfile, .setLineProfile dt), (.setBond, .setBond dt),
    (.setHostProfile, .setHostProfile dt), (.setTiming, .setTiming dt), (.commitProfile, .commitProfile dt),
    (.reopenVote, .reopenVote dt), (.clearAll, .clearAll dt)]

/-- What a block with an arbiter runs: the choice among links, and a handling that has an effect. -/
theorem exec_arbitrated {dt : Nat} {k : Kind} {c : Instr} (h : (k, c) ∈ arbitrated dt) :
    k ≠ .fetchNotices ∧ (∀ d, c ≠ .hardwareReset d) ∧ ∃ f : State → HostId → Request → State × Answer,
      (∀ s, exec c s = .next ((s.elapse dt).takeChosen k f))
        ∧ ∀ t n q, t.resetn = true → (t.sessions.get n).state = .attached → Effect c t (f t n q).1 := by
  simp only [arbitrated, List.mem_cons, Prod.mk.injEq, List.not_mem_nil, or_false] at h
  rcases h with ⟨rfl, rfl⟩ | ⟨rfl, rfl⟩ | ⟨rfl, rfl⟩ | ⟨rfl, rfl⟩ | ⟨rfl, rfl⟩ | ⟨rfl, rfl⟩ | ⟨rfl, rfl⟩ | ⟨rfl, rfl⟩ | ⟨rfl, rfl⟩
    | ⟨rfl, rfl⟩ | ⟨rfl, rfl⟩ | ⟨rfl, rfl⟩ | ⟨rfl, rfl⟩ | ⟨rfl, rfl⟩ | ⟨rfl, rfl⟩ | ⟨rfl, rfl⟩ <;>
    refine ⟨by simp, by simp, _, fun _ => rfl, fun t n q hr hstate => ?_⟩
  · exact .handleClaim dt t n q hr hstate
  · exact .handleRelease dt t n q
  · rw [handleQueryClaim_state]; exact .stands _ t
  · exact .handleSetLevels dt t n q
  · exact .handleReconfigure dt t n q
  · exact .handleClearFault dt t n q
  · rw [handleReadLines_state]; exact .stands _ t
  · rw [handleQueryLine_state]; exact .stands _ t
  · rw [handleReadProfile_state]; exact .stands _ t
  · exact .profileEdit _ t n _ _ fun es _ hopen => .editsLines dt es t hopen
  · exact .handleSetBond dt t n q
  · exact .handleSetHostProfile dt t n q
  · exact .profileEdit _ t n _ _ fun a ha hopen => .times dt _ a t hopen ha
  · exact .profileEdit _ t n _ _ fun _ _ hopen => .commits dt t hopen
  · exact .handleReopenVote dt t n q hstate
  · exact .handleClearAll dt t n q hstate

/-- Taking a request leaves the turns as the serving of its link set them. -/
theorem sameTurns.take {s : State} {n : HostId} {q : Request} {c : Instr} {f : State → HostId → Request → State × Answer}
    (hc : ∀ dt, c ≠ .hardwareReset dt) (hr : s.resetn = true) (hk : q.kind ≠ .fetchNotices)
    (hf : ∀ t n q, t.resetn = true → (t.sessions.get n).state = .attached → Effect c t (f t n q).1) :
    sameTurns s (s.take n q f) := by
  rcases s.take_cases n q f with ⟨st, _, heq⟩ | ⟨hpass, heq⟩ <;> rw [heq]
  · exact ⟨rfl, rfl, rfl, rfl⟩
  · obtain ⟨_, hstate | ⟨_, hfetch⟩⟩ := (recheck_eq_none _ _ _).mp hpass
    · obtain ⟨_, ⟨dt, hreset⟩ | hsame⟩ := (hf s n q hr hstate).turns
      · exact absurd hreset (hc dt)
      · exact hsame.trans ⟨rfl, rfl, rfl, rfl⟩
    · exact absurd hfetch hk

/-- Settles O14: the choice is the first in cyclic order, and what a block makes of a request leaves every turn but its own. -/
theorem arbitersAreCyclic : Obligations.ArbitersAreCyclic := by
  constructor
  · intro s o n last hlast
    have hserved : s.lastServed o = last := by
      rcases hlast with ⟨rfl, rfl⟩ | ⟨rfl, rfl⟩ | ⟨rfl, rfl⟩ <;> rfl
    rw [State.chosen, nextLink_eq_some, hserved, State.presents_iff]
    simp only [State.presents_iff]
  · intro s dt n q k c hmem hoffers
    have hmem' : (k, c) ∈ arbitrated dt := hmem
    obtain ⟨hk, hc, f, hstep, hf⟩ := exec_arbitrated hmem'
    refine ⟨_, hstep s, ?_⟩
    rw [State.takeChosen_of_offers (s := s.elapse dt) hoffers]
    obtain ⟨hr, _, hkind, _⟩ := hoffers
    obtain ⟨_, hctc, hlca, hpu⟩ := sameTurns.take (s := (s.elapse dt).serve k.owner n) (n := n) (q := q) hc
      (by simpa using hr) (hkind ▸ hk) hf
    rw [hctc, hlca, hpu]
    cases k with
    | fetchNotices => exact absurd rfl hk
    | _ => exact ⟨rfl, rfl, rfl⟩

/-! ## Requests overtaken -/

/-- The status that answers a request whose issuer's session has ended or begun anew (R94). -/
theorem recheck_of_overtaken {c : Session} {k : Kind} {e : BitVec 16} {st : Status}
    (h : (c.state = .attached ∧ e ≠ c.epoch ∧ st = .staleEpoch)
      ∨ (c.state = .lapsed ∧ (k ≠ .fetchNotices ∨ e ≠ c.epoch) ∧ st = .lapsed)
      ∨ (c.state = .detached ∧ st = .notAttached)) : recheck c k e = some st := by
  rcases h with ⟨hstate, hepoch, rfl⟩ | ⟨hstate, hother, rfl⟩ | ⟨hstate, rfl⟩
  · simp only [recheck, hstate, if_neg hepoch]
  · simp only [recheck, hstate, if_neg fun hboth : e = c.epoch ∧ k = .fetchNotices => hother.elim (· hboth.2) (· hboth.1)]
  · simp only [recheck, hstate]

/-- The status that refuses a request its session turns away (R92). -/
theorem admission_of_refused {c : Session} {k : Kind} {e : BitVec 16} {st : Status}
    (h : (¬ c.state.allows k ∧ c.state = .detached ∧ st = .notAttached) ∨ (¬ c.state.allows k ∧ c.state = .lapsed ∧ st = .lapsed)
      ∨ (c.state.allows k ∧ ¬ c.admits k e ∧ st = .staleEpoch)) : admission c k e = some st := by
  have hallowed : allowedIn c.state k = true ↔ c.state.allows k := by
    unfold allowedIn SessState.allows
    cases c.state <;> cases k <;> simp
  unfold admission
  rcases h with ⟨hnot, hstate, rfl⟩ | ⟨hnot, hstate, rfl⟩ | ⟨hallows, hnot, rfl⟩
  · rw [if_neg (hallowed.not.mpr hnot), if_pos hstate]
  · rw [if_neg (hallowed.not.mpr hnot), if_neg (by simp [hstate])]
  · rw [if_pos (hallowed.mpr hallows), if_neg fun hepoch => hnot ⟨hallows, hepoch⟩]

/-- A request the recheck refuses is answered bare (R94). -/
theorem State.take_of_recheck {s : State} {n : HostId} {q : Request} {st : Status}
    (h : recheck (s.sessions.get n) q.kind q.epoch = some st) (f : State → HostId → Request → State × Answer) :
    s.take n q f = s.reply n q (bare st) := by
  simp only [State.take, h]

/-- A request the Session Unit turns away is answered bare (R92). -/
theorem State.takeSession_of_refused {s : State} {n : HostId} {k : Kind} {q : Request} {st : Status} (hr : s.resetn = true)
    (hwaits : s.waits n q) (hkind : q.kind = k) (h : admission (s.sessions.get n) k q.epoch = some st)
    (f : State → HostId → Request → Session → State × Answer) : s.takeSession n k f = s.reply n q (bare st) := by
  simp only [State.takeSession, hr, (s.inHand_eq_some n q).mpr hwaits, hkind, h, if_true]

/-- The commands of the Session Unit's own kinds, and the kinds they take. -/
def sessionCommands (dt : Nat) (n : HostId) : List (Kind × Instr) :=
  [(.status, .status dt n), (.attach, .attach dt n), (.detach, .detach dt n), (.heartbeat, .heartbeat dt n)]

/-- What they run. -/
theorem exec_session {dt : Nat} {n : HostId} {k : Kind} {c : Instr} (h : (k, c) ∈ sessionCommands dt n) :
    ∃ f : State → HostId → Request → Session → State × Answer, ∀ s, exec c s = .next ((s.elapse dt).takeSession n k f) := by
  simp only [sessionCommands, List.mem_cons, Prod.mk.injEq, List.not_mem_nil, or_false] at h
  rcases h with ⟨rfl, rfl⟩ | ⟨rfl, rfl⟩ | ⟨rfl, rfl⟩ | ⟨rfl, rfl⟩ <;> exact ⟨_, fun _ => rfl⟩

/-- Settles O15: a request that fails the recheck, or that the Session Unit turns away, is answered bare. -/
theorem overtakenRequestsRefused : Obligations.OvertakenRequestsRefused := by
  constructor
  · intro s dt n q k c st hmem hr hwaits hkind hchosen hover
    have hpass : recheck ((s.turn dt k n).sessions.get n) q.kind q.epoch = some st := by
      rw [hkind]
      exact recheck_of_overtaken (by simpa [State.turn] using hover)
    have htaken (f : State → HostId → Request → State × Answer) :
        onlyAnswers s ((s.turn dt k n).take n q f) dt k n q st [] := by
      rw [State.take_of_recheck hpass]
      exact s.onlyAnswers_turn_reply dt k n q (bare st)
    by_cases hfetch : k = .fetchNotices
    · subst hfetch
      have hc : c = .fetchNotices dt n := by simpa using hmem
      subst hc
      refine ⟨_, congrArg Host.Outcome.next ?_, htaken handleFetch⟩
      simp only [State.takeAt, State.elapse_resetn, hr, ((s.elapse dt).inHand_eq_some n q).mpr hwaits, hkind, if_true]
      rfl
    · have hmem' : (k, c) ∈ arbitrated dt := by
        simp only [arbitrated, List.mem_cons, Prod.mk.injEq, hfetch, false_and, false_or] at hmem ⊢
        exact hmem
      obtain ⟨_, _, f, hstep, _⟩ := exec_arbitrated hmem'
      refine ⟨_, hstep s, ?_⟩
      rw [State.takeChosen_of_offers (s := s.elapse dt) (n := n) (q := q) ⟨hr, hwaits, hkind, hchosen.resolve_left hfetch⟩]
      exact htaken f
  · intro s dt n q k c st hmem hr hwaits hkind hrefused
    obtain ⟨f, hstep⟩ := exec_session hmem
    refine ⟨_, hstep s, ?_⟩
    rw [State.takeSession_of_refused (s := s.elapse dt) hr hwaits hkind (admission_of_refused hrefused)]
    exact ⟨rfl, posts_reply rfl n q rfl⟩

end Sys2Proof.Machine
end

section
/-! SUPPORT. The Session Unit's own requests: STATUS, HEARTBEAT, ATTACH that begins a session, and payloads its kinds do not allow (R92,
R93, R95, R98, R103). -/

namespace Sys2Proof.Machine

/-! ## An admitted request -/

/-- The state in which the Session Unit handles port `n`'s request after `dt`: refreshed (R93). -/
def State.admitted (s : State) (dt : Nat) (n : HostId) : State :=
  (s.elapse dt).putSession n ((s.sessions.get n).refreshed (s.now + dt))

/-- A request the Session Unit admits is handled in the refreshed state (R92, R93). -/
theorem State.takeSession_of_admits {s : State} {n : HostId} {k : Kind} {q : Request} (hr : s.resetn = true)
    (hwaits : s.waits n q) (hkind : q.kind = k) (h : (s.sessions.get n).admits k q.epoch) (dt : Nat)
    (f : State → HostId → Request → Session → State × Answer) :
    (s.elapse dt).takeSession n k f =
      (f (s.admitted dt n) n q (s.sessions.get n)).1.reply n q (f (s.admitted dt n) n q (s.sessions.get n)).2 := by
  have hadmit : admission ((s.elapse dt).sessions.get n) k q.epoch = none := (admission_eq_none _ _ _).mpr h
  have hrefresh : (s.elapse dt).refresh n = s.admitted dt n := (s.elapse dt).refresh_eq n
  simp only [State.takeSession, State.elapse_resetn, hr, ((s.elapse dt).inHand_eq_some n q).mpr hwaits, hkind, if_true, hadmit,
    hrefresh]
  rfl

/-- The context of the issuer, refreshed. -/
@[simp] theorem State.admitted_session (s : State) (dt : Nat) (n : HostId) :
    (s.admitted dt n).sessions.get n = (s.sessions.get n).refreshed (s.now + dt) :=
  Table.get_set_self _ _ _

/-- No other context changes. -/
theorem State.admitted_session_ne (s : State) (dt : Nat) {n m : HostId} (h : m ≠ n) :
    (s.admitted dt n).sessions.get m = s.sessions.get m :=
  Table.get_set_ne _ _ h

/-- A refresh leaves all but the deadline (R93). -/
theorem Session.refreshed_kept (c : Session) (moment : Nat) :
    (c.refreshed moment).state = c.state ∧ (c.refreshed moment).epoch = c.epoch ∧ (c.refreshed moment).period = c.period
      ∧ (c.refreshed moment).voted = c.voted := by
  unfold Session.refreshed
  split <;> exact ⟨rfl, rfl, rfl, rfl⟩

/-- ATTACH and STATUS are admitted in every state (R92). -/
theorem Session.admits_always (c : Session) {k : Kind} (h : k = .attach ∨ k = .status) (e : BitVec 16) : c.admits k e := by
  rcases h with rfl | rfl
  · exact ⟨.inl rfl, .inl rfl⟩
  · exact ⟨.inr (.inl rfl), .inr (.inl rfl)⟩

/-! ## Payloads -/

/-- A heartbeat period read from its two bytes (R95, R98). -/
theorem periodArg_twoBytes {p : Nat} (h : 1 ≤ p ∧ p ≤ 1000) : periodArg (twoBytes p) = some p := by
  have hvalue : (u16Of (BitVec.ofNat 8 (p / 256)) (BitVec.ofNat 8 p)).toNat = p := by
    rw [toNat_u16Of, BitVec.toNat_ofNat, BitVec.toNat_ofNat]
    omega
  simp only [periodArg, twoBytes, hvalue, h.1, h.2, and_self, if_true]

/-- A payload that holds no heartbeat period (R95, R98). -/
theorem periodArg_of_malformed {p : List Byte} (h : periodMalformed p) : periodArg p = none := by
  unfold periodArg
  split
  · rename_i hi lo
    refine if_neg fun hrange => ?_
    rw [toNat_u16Of] at hrange
    simp only [periodMalformed, List.length_cons, List.length_nil, List.getD_cons_zero, List.getD_cons_succ] at h
    omega
  · rfl

/-- A number of two bytes as the model writes it (R161). -/
theorem natBytes2_eq (n : Nat) : natBytes2 n = twoBytes n := by
  rw [natBytes2, u16Bytes_eq, BitVec.toNat_ofNat]
  simp only [twoBytes, List.cons.injEq, and_true]
  constructor <;> apply BitVec.eq_of_toNat_eq <;> simp only [BitVec.toNat_ofNat] <;> omega

/-! ## STATUS -/

/-- The flags of a STATUS response (R103, R161). -/
theorem statusFlags_eq (s : State) (voted : Bool) :
    profileFlags s ||| flagBit voted 2 =
      (if s.profile.state = .committed then 1#8 else 0#8) ||| (if s.vote.running then 2#8 else 0#8)
        ||| (if voted then 4#8 else 0#8) := by
  unfold profileFlags flagBit
  simp only [beq_iff_eq]
  rfl

/-- The time left to the deadline of a session (R103, R146). -/
theorem heartbeatLeft_eq (now : Nat) (c : Session) :
    heartbeatLeft now c = match c.state, c.deadline with
      | .attached, some d => min ((d - now) / 10000) (c.period - 1)
      | _, _ => 0 := by
  unfold heartbeatLeft unitsLeft
  cases c.state <;> cases c.deadline <;> rfl

/-- The code of a session state (R161). -/
theorem SessState.code_eq (st : SessState) :
    st.code = match st with | .detached => 0#8 | .attached => 1#8 | .lapsed => 2#8 := by
  cases st <;> rfl

/-- Settles O16: the request is admitted in every state, and its handling writes nothing. -/
theorem statusReports : Obligations.StatusReports := by
  intro s dt n q hr hwaits hkind hpayload
  have hadmits := (s.sessions.get n).admits_always (.inr rfl) q.epoch
  refine ⟨_, congrArg Host.Outcome.next (State.takeSession_of_admits hr hwaits hkind hadmits dt handleStatus), ?_⟩
  have hhandled : handleStatus (s.admitted dt n) n q (s.sessions.get n) =
      (s.admitted dt n, { status := .ok, payload := statusPayload (s.admitted dt n) n (s.sessions.get n) }) := if_pos hpayload
  rw [hhandled]
  refine ⟨rfl, s.admitted_session dt n, fun h hne => s.admitted_session_ne dt hne, posts_reply rfl n q ?_⟩
  obtain ⟨hstate, hepoch, hperiod, hvoted⟩ := (s.sessions.get n).refreshed_kept (s.now + dt)
  simp only [statusPayload, State.admitted_session, hstate, hepoch, hperiod, hvoted, SessState.code_eq, u16Bytes_eq, natBytes2_eq,
    heartbeatLeft_eq, State.recordCount_eq, statusFlags_eq]
  rfl

/-! ## HEARTBEAT -/

/-- Settles O20: the refresh sets the deadline, and a new period replaces it. -/
theorem heartbeatMovesTheDeadline : Obligations.HeartbeatMovesTheDeadline := by
  intro s dt n q p hr hwaits hkind hcurrent hp
  obtain ⟨hstate, hepoch⟩ := hcurrent
  have hadmits : (s.sessions.get n).admits .heartbeat q.epoch := by
    rw [Session.admits, hstate]
    exact ⟨.inr (.inr (.inr rfl)), .inr (.inr hepoch.symm)⟩
  refine ⟨_, congrArg Host.Outcome.next (State.takeSession_of_admits hr hwaits hkind hadmits dt handleHeartbeat), ?_⟩
  have hrefreshed : (s.sessions.get n).refreshed (s.now + dt) =
      { s.sessions.get n with deadline := some (s.now + dt + (s.sessions.get n).period * 10000) } := if_pos hstate
  rcases hp with ⟨hpayload, rfl⟩ | ⟨hlow, hhigh, hpayload⟩
  · have hhandled : handleHeartbeat (s.admitted dt n) n q (s.sessions.get n) =
        (s.admitted dt n, heartbeatAnswer (s.sessions.get n).epoch (s.sessions.get n).period) := if_pos hpayload
    rw [hhandled]
    exact ⟨rfl, (s.admitted_session dt n).trans hrefreshed, fun h hne => s.admitted_session_ne dt hne,
      posts_reply rfl n q (by simp only [heartbeatAnswer, u16Bytes_eq, natBytes2_eq])⟩
  · have hne : q.payload ≠ [] := by rw [hpayload]; simp [twoBytes]
    have hhandled : handleHeartbeat (s.admitted dt n) n q (s.sessions.get n) =
        ((s.admitted dt n).putSession n { (s.admitted dt n).sessions.get n with
            period := p, deadline := some ((s.admitted dt n).heartbeatEnd p) },
          heartbeatAnswer (s.sessions.get n).epoch p) := by
      simp only [handleHeartbeat, if_neg hne]
      rw [hpayload, periodArg_twoBytes ⟨hlow, hhigh⟩]
    rw [hhandled]
    refine ⟨rfl, ?_, fun h hne => ?_, posts_reply rfl n q (by simp only [heartbeatAnswer, u16Bytes_eq, natBytes2_eq])⟩
    · refine (Table.get_set_self _ _ _).trans ?_
      rw [State.admitted_session, hrefreshed]
      rfl
    · exact (Table.get_set_ne _ _ hne).trans (s.admitted_session_ne dt hne)

/-! ## ATTACH that begins a session -/

/-- The completion test passes over a vote that some required host has not cast (R135). -/
theorem State.completionTest_of_unvoted {s : State} {n : HostId} (hrequired : has s.vote.required n = true)
    (hvoted : has s.vote.voted n = false) : s.completionTest = s := by
  rcases s.completionTest_cases with ⟨_, hnone, _⟩ | ⟨_, _, hwhole, _⟩ | ⟨_, heq⟩
  · rw [hnone] at hrequired
    simp at hrequired
  · rw [hwhole, hrequired] at hvoted
    cases hvoted
  · exact heq

/-- A host that joins a running vote is in it unvoted, and told of it (R97, R135). -/
theorem State.hostJoined_eq (s : State) (n : HostId) :
    s.hostJoined n =
      if s.vote.running then
        { s with vote := { s.vote with required := s.vote.required ||| bitOf n, voted := s.vote.voted &&& ~~~ bitOf n } }.postVoteOpen n
      else s := by
  unfold State.hostJoined
  split
  · have hrequired : has (s.vote.required ||| bitOf n) n = true := by simp
    have hvoted : has (s.vote.voted &&& ~~~ bitOf n) n = false := by simp
    exact State.completionTest_of_unvoted hrequired hvoted
  · rfl

/-- The board of a host told that a vote is open, its board having been cleared. -/
theorem State.postVoteOpen_board {s : State} {n : HostId} (h : s.boards.get n = Board.empty) :
    (s.postVoteOpen n).boards.get n =
      { notices := [], change := 0#48, overrun := 0#48, fault := 0#48, attn := true
        flags := { SessionFlags.clear with voteOpen := true } } := by
  refine (Table.get_set_self _ _ _).trans ?_
  rw [h]
  rfl

/-- An ATTACH with a period of 1 to 1000 begins a session where none is ATTACHED (R95). -/
theorem handleAttach_of_begins {s : State} {n : HostId} {q : Request} {p : Nat} {c : Session} (hp : 1 ≤ p ∧ p ≤ 1000)
    (hpayload : q.payload = twoBytes p) (hstate : c.state ≠ .attached) :
    handleAttach s n q c = (s.beginSession n p, attachAnswer (s.beginSession n p) n p c.state) := by
  simp only [handleAttach, hpayload, periodArg_twoBytes hp, if_neg hstate]

/-- What the beginning of a session changes: its context, its board, and the vote it joins (R91, R95, R97). -/
theorem State.beginSession_spec (s : State) (n : HostId) (p : Nat) :
    s.beginSession n p =
        { s with sessions := (s.beginSession n p).sessions, boards := (s.beginSession n p).boards
                 vote := (s.beginSession n p).vote }
      ∧ (s.beginSession n p).sessions = s.sessions.set n ((s.sessions.get n).begun p (s.now + p * 10000))
      ∧ (∀ h, h ≠ n → (s.beginSession n p).boards.get h = s.boards.get h)
      ∧ (s.beginSession n p).boards.get n =
          { notices := [], change := 0#48, overrun := 0#48, fault := 0#48, attn := s.vote.running
            flags := { SessionFlags.clear with voteOpen := s.vote.running } }
      ∧ (s.beginSession n p).vote = (if s.vote.running then
            { s.vote with required := s.vote.required ||| bitOf n, voted := s.vote.voted &&& ~~~ bitOf n }
          else s.vote) := by
  let x : State := (s.clearBoard n).putSession n ((s.sessions.get n).begun p (s.now + p * 10000))
  have hbegin : s.beginSession n p = if s.vote.running then
      { x with vote := { s.vote with required := s.vote.required ||| bitOf n, voted := s.vote.voted &&& ~~~ bitOf n } }.postVoteOpen n
      else x := State.hostJoined_eq x n
  have hboard : x.boards.get n = Board.empty := Table.get_set_self _ _ _
  have hother (h : HostId) (hne : h ≠ n) : x.boards.get h = s.boards.get h := Table.get_set_ne _ _ hne
  rw [hbegin]
  cases s.vote.running with
  | true => exact ⟨rfl, rfl, fun h hne => (Table.get_set_ne _ _ hne).trans (hother h hne), State.postVoteOpen_board hboard, rfl⟩
  | false => exact ⟨rfl, rfl, hother, hboard, rfl⟩

/-- The response to an accepted ATTACH (R95, R96). -/
theorem attachAnswer_payload (s : State) (n : HostId) (p : Nat) (st : SessState) :
    (attachAnswer s n p st).payload = twoBytes (s.sessions.get n).epoch.toNat ++ twoBytes p ++ [st.code] := by
  simp only [attachAnswer, u16Bytes_eq, natBytes2_eq]

/-- Settles O17, by what the beginning of a session changes. -/
theorem attachBeginsASession : Obligations.AttachBeginsASession := by
  intro s dt n q p hr hwaits hkind hstate hp hpayload
  have hadmits := (s.sessions.get n).admits_always (.inl rfl) q.epoch
  have hstep : exec (.attach dt n) s = .next _ :=
    congrArg Host.Outcome.next (State.takeSession_of_admits hr hwaits hkind hadmits dt handleAttach)
  rw [handleAttach_of_begins hp hpayload hstate] at hstep
  have hrefreshed : (s.admitted dt n).sessions.get n = s.sessions.get n :=
    (s.admitted_session dt n).trans (if_neg hstate)
  obtain ⟨hframe, hsessions, hothers, hboard, hvote⟩ := (s.admitted dt n).beginSession_spec n p
  generalize (s.admitted dt n).beginSession n p = v at hstep hframe hsessions hothers hboard hvote
  rw [hrefreshed] at hsessions
  have hself : v.sessions.get n = (s.sessions.get n).begun p (s.now + dt + p * 10000) := by rw [hsessions, Table.get_set_self]; rfl
  have hother (h : HostId) (hne : h ≠ n) : v.sessions.get h = s.sessions.get h := by
    rw [hsessions, Table.get_set_ne _ _ hne]
    exact s.admitted_session_ne dt hne
  have hbefore : (s.sessions.get n).state.code = if (s.sessions.get n).state = .detached then 0#8 else 2#8 := by
    cases h : (s.sessions.get n).state with
    | attached => exact absurd h hstate
    | detached | lapsed => rfl
  refine ⟨_, nextEpoch (s.sessions.get n).epoch, hstep, toNat_nextEpoch _, ?_, hself, fun h hne => ⟨hother h hne, hothers h hne⟩,
    hboard, hvote, posts_reply (by rw [hframe]; rfl) n q ?_⟩
  · exact State.reply_of_eq hframe n q _
  · rw [attachAnswer_payload, hself, hbefore]
    rfl

/-! ## Payloads no kind allows -/

/-- Settles O21: each handling of the Session Unit answers BAD_ARGUMENT in the refreshed state. -/
theorem sessionRequestsRefuseBadPayloads : Obligations.SessionRequestsRefuseBadPayloads := by
  intro s dt n q k c hmem hr hwaits hkind hadmits hbad
  have refused {f : State → HostId → Request → Session → State × Answer}
      (hf : f (s.admitted dt n) n q (s.sessions.get n) = (s.admitted dt n, bare .badArgument)) :
      ∃ t, Host.Outcome.next ((s.elapse dt).takeSession n k f) = (.next t : Host.Outcome State Fault Refusal)
        ∧ t = { s.elapse dt with ports := t.ports, sessions := t.sessions }
        ∧ t.sessions.get n = (s.sessions.get n).refreshed (s.now + dt)
        ∧ (∀ h, h ≠ n → t.sessions.get h = s.sessions.get h) ∧ posts s t n q .badArgument [] := by
    refine ⟨_, congrArg Host.Outcome.next (State.takeSession_of_admits hr hwaits hkind hadmits dt f), ?_⟩
    rw [hf]
    exact ⟨rfl, s.admitted_session dt n, fun h hne => s.admitted_session_ne dt hne, posts_reply rfl n q rfl⟩
  simp only [List.mem_cons, Prod.mk.injEq, List.not_mem_nil, or_false] at hmem
  rcases hmem with ⟨rfl, rfl⟩ | ⟨rfl, rfl⟩ | ⟨rfl, rfl⟩ | ⟨rfl, rfl⟩
  · exact refused (f := handleStatus) (if_neg (by simpa using hbad))
  · refine refused (f := handleAttach) ?_
    simp only [handleAttach, periodArg_of_malformed (by simpa using hbad)]
  · exact refused (f := handleDetach) (if_neg (by simpa using hbad))
  · obtain ⟨hne, hmalformed⟩ : q.payload ≠ [] ∧ periodMalformed q.payload := by simpa using hbad
    refine refused (f := handleHeartbeat) ?_
    simp only [handleHeartbeat, if_neg hne, periodArg_of_malformed hmalformed]

end Sys2Proof.Machine
end

section
/-! SUPPORT. The vote when a host leaves (R135), flag by flag and host by host. -/

namespace Sys2Proof.Machine

/-! ## Changes made host by host -/

/-- An operation for each host of a set, which for a host changes what is that host's alone, changes what is each one's once. -/
theorem State.forHosts_get {α : Type} (P : State → HostId → α) (g : HostId → α → α) (f : State → HostId → State)
    (hself : ∀ t h, P (f t h) h = g h (P t h)) (hother : ∀ t h m, m ≠ h → P (f t h) m = P t m) (s : State) (w : HostSet)
    (m : HostId) : P (s.forHosts w f) m = if has w m then g m (P s m) else P s m := by
  have walk (l : List HostId) (hl : l.Nodup) (t : State) :
      P (l.foldl (fun t h => if has w h then f t h else t) t) m = if m ∈ l ∧ has w m = true then g m (P t m) else P t m := by
    induction l generalizing t with
    | nil => simp
    | cons h l ih =>
      obtain ⟨hh, hl⟩ := List.nodup_cons.mp hl
      rw [List.foldl_cons, ih hl]
      have hstep : P (if has w h then f t h else t) m = if m = h ∧ has w h = true then g m (P t m) else P t m := by
        by_cases hw : has w h = true
        · by_cases hm : m = h
          · subst hm
            simp only [hw, if_true, hself, and_self]
          · simp only [hw, if_true, hm, false_and, if_false, hother t h m hm]
        · simp [hw]
      rw [hstep]
      by_cases hm : m = h
      · subst hm
        simp [hh]
      · simp [hm]
  exact (walk _ (List.nodup_finRange 4) s).trans (by simp)

/-- A board that has taken a session flag. -/
def Board.flagged (b : Board) (f : SessionFlags → SessionFlags) : Board :=
  { b with flags := f b.flags, attn := !({ b with flags := f b.flags } : Board).isEmpty }

/-- A flag that shows asserts ATTN (R114). -/
theorem Board.flagged_eq (b : Board) {f : SessionFlags → SessionFlags} (h : f b.flags ≠ SessionFlags.clear) :
    b.flagged f = { b with flags := f b.flags, attn := true } := by
  have hempty : ({ b with flags := f b.flags } : Board).isEmpty = false := by
    rw [Bool.eq_false_iff, Ne, Board.isEmpty_iff]
    exact fun hbare => h hbare.2.2.2.2
  simp only [Board.flagged, hempty, Bool.not_false]

/-- The boards after a session flag is set for each host of a set (R112). -/
theorem State.forHosts_flag_board (s : State) (w : HostSet) (f : SessionFlags → SessionFlags) (m : HostId) :
    (s.forHosts w fun t h => t.flag h f).boards.get m =
      if has w m then (s.boards.get m).flagged f else s.boards.get m :=
  State.forHosts_get (fun t h => t.boards.get h) (fun _ b => b.flagged f) (fun t h => t.flag h f)
    (fun _ _ => Table.get_set_self _ _ _) (fun _ _ _ hne => Table.get_set_ne _ _ hne) s w m

/-! ## The vote when a host leaves -/

/-- A vote that has voted whole ends, opens the profile, and tells every attached host (R135). -/
theorem State.completionTest_of_whole {s : State} (hrun : s.vote.running = true) (hnone : s.vote.required ≠ 0#4)
    (hwhole : s.vote.voted = s.vote.required) :
    s.completionTest = { s.endVote with boards := s.completionTest.boards, profile := { s.profile with state := .opened } }
      ∧ ∀ m, s.completionTest.boards.get m =
        if (s.sessions.get m).state = .attached then
          { s.boards.get m with flags := { (s.boards.get m).flags with profileOpened := true }, attn := true }
        else s.boards.get m := by
  have heq : s.completionTest = { s.endVote with profile := { s.profile with state := .opened } }.forHosts s.attachedSet fun t h =>
      t.flag h fun f => { f with profileOpened := true } := by
    rcases s.completionTest_cases with ⟨_, hzero, _⟩ | ⟨_, _, _, heq⟩ | ⟨hopen, _⟩
    · exact absurd hzero hnone
    · exact heq
    · exact absurd hwhole (hopen.resolve_left (by simp [hrun])).2
  refine ⟨?_, fun m => ?_⟩
  · rw [heq, State.forHosts_flag_frame]
  · rw [heq, State.forHosts_flag_board]
    have hattached : has s.attachedSet m = true ↔ (s.sessions.get m).state = .attached := by simp [State.attachedSet]
    by_cases hm : (s.sessions.get m).state = .attached
    · rw [if_pos (hattached.mpr hm), if_pos hm]
      exact Board.flagged_eq _ (by simp [SessionFlags.clear])
    · rw [if_neg fun hx => hm (hattached.mp hx), if_neg hm]
      rfl

/-- The vote without a host (R135). -/
def Vote.without (v : Vote) (n : HostId) : Vote :=
  { v with required := v.required &&& ~~~ bitOf n, voted := v.voted &&& ~~~ bitOf n }

/-- Where no vote runs, nothing is decided. -/
theorem State.hostLeft_of_idle {s : State} (h : s.vote.running = false) (n : HostId) : s.hostLeft n = s :=
  if_neg (by simp [h])

/-- What leaving a running vote decides (R135): the vote ends with an empty required set, completes with one that has voted whole, and
runs on otherwise. -/
theorem State.hostLeft_cases {s : State} (h : s.vote.running = true) (n : HostId) :
    (s.vote.required &&& ~~~ bitOf n = 0#4 ∧ s.hostLeft n = s.endVote)
      ∨ (s.vote.required &&& ~~~ bitOf n ≠ 0#4 ∧ s.vote.voted &&& ~~~ bitOf n = s.vote.required &&& ~~~ bitOf n
        ∧ s.hostLeft n =
          { s.endVote with boards := (s.hostLeft n).boards, profile := { s.profile with state := .opened } }
        ∧ ∀ m, (s.hostLeft n).boards.get m =
          if (s.sessions.get m).state = .attached then
            { s.boards.get m with flags := { (s.boards.get m).flags with profileOpened := true }, attn := true }
          else s.boards.get m)
      ∨ (s.vote.required &&& ~~~ bitOf n ≠ 0#4 ∧ s.vote.voted &&& ~~~ bitOf n ≠ s.vote.required &&& ~~~ bitOf n
        ∧ s.hostLeft n = { s with vote := s.vote.without n }) := by
  have hleft : s.hostLeft n = ({ s with vote := s.vote.without n } : State).completionTest := if_pos h
  rw [hleft]
  rcases ({ s with vote := s.vote.without n } : State).completionTest_cases with ⟨_, hnone, heq⟩ | ⟨_, hnone, hwhole, _⟩ | ⟨hopen, heq⟩
  · exact .inl ⟨hnone, by rw [heq]; rfl⟩
  · exact .inr (.inl ⟨hnone, hwhole, State.completionTest_of_whole (s := { s with vote := s.vote.without n }) h hnone hwhole⟩)
  · obtain ⟨hnone, hwhole⟩ := hopen.resolve_left (by simp [Vote.without, h])
    exact .inr (.inr ⟨hnone, hwhole, heq⟩)

/-- The sessions after a host has left: vote flags that are cleared, if anything (R133). -/
theorem State.hostLeft_session (s : State) (n m : HostId) :
    (s.hostLeft n).sessions.get m = s.sessions.get m
      ∨ (s.hostLeft n).sessions.get m = { s.sessions.get m with voted := false } := by
  have hend : s.endVote.sessions.get m = { s.sessions.get m with voted := false } := Table.get_ofFn _ _
  cases hrun : s.vote.running with
  | false => exact .inl (by rw [State.hostLeft_of_idle hrun])
  | true =>
    rcases State.hostLeft_cases hrun n with ⟨_, heq⟩ | ⟨_, _, heq, _⟩ | ⟨_, _, heq⟩ <;> rw [heq]
    · exact .inr hend
    · exact .inr hend
    · exact .inl rfl

/-- The board of a host that is not ATTACHED when it leaves stands. -/
theorem State.hostLeft_board {s : State} {n m : HostId} (h : (s.sessions.get m).state ≠ .attached) :
    (s.hostLeft n).boards.get m = s.boards.get m := by
  cases hrun : s.vote.running with
  | false => rw [State.hostLeft_of_idle hrun]
  | true =>
    rcases State.hostLeft_cases hrun n with ⟨_, heq⟩ | ⟨_, _, _, hboards⟩ | ⟨_, _, heq⟩
    · rw [heq]
      rfl
    · rw [hboards, if_neg h]
    · rw [heq]

/-! ## What the freeing of a host's records leaves -/

/-- What is left from `s` to `t` where every record of host `n` is freed with no notice (R9, R73, R107). -/
structure FreedHost (s t : State) (n : HostId) : Prop where
  remain : recordsRemain s t
  lost : recordsLost s t fun _ r => r.owner = n
  lines : ∀ i, ∀ r ∈ s.slots.get i, r.owner = n → r.state ≠ .waiting → ∀ l, r.names l = true →
    (∀ j, ∀ w ∈ s.slots.get j, w.state = .waiting → w.names l = true → w.owner = n) ∨ ¬ t.lineHeld l → t.atRest l
  stand : cellsStand s t
  samples : samplesKept s t
  entries : ∀ h, h ≠ n → entriesStand s t h

/-- A freeing of a host's records leaves that, with every other board as its records' moves leave it. -/
theorem State.freedHost (s : State) (n : HostId) :
    FreedHost s (s.freeHost n) n ∧ otherBoardsFollow s (s.freeHost n) n ∧ ∀ h, boardStands s (s.freeHost n) h := by
  obtain ⟨⟨m, hrun⟩, hgone⟩ := s.freeAll_run (slotsWhere s.slots fun r => r.owner == n) .sessionEnd
  change TableRun .sessionEnd s m (s.freeHost n) at hrun
  change ∀ j, (s.freeHost n).slots.get j = none ↔ _ at hgone
  generalize s.freeHost n = t at hrun hgone
  have howned {j : SlotId} {r : Record} (hr : s.slots.get j = some r) : t.slots.get j = none ↔ r.owner = n := by
    rw [hgone j, mem_slotsWhere, hr]
    simp
  refine ⟨⟨hrun.recordsRemain, fun j r hr => (howned hr).symm, fun i r hr howner hlive l hl hfree => ?_, hrun.cellsStand,
    hrun.tableOnly.2, fun h _ => hrun.entriesStand h⟩, hrun.otherBoardsFollow n, hrun.boardStands⟩
  refine hrun.atRest_gone hr ((howned hr).mpr howner) hlive hl (hfree.imp_left fun hall j w hw hwaiting hwl => ?_)
  exact (howned hw).mpr (hall j w hw hwaiting hwl)

/-- What holds of the table and of the boards' entries holds where sessions, flags and the vote change beside them. -/
theorem FreedHost.of_ends {s w t : State} {n : HostId} (h : FreedHost s w n) (hslots : t.slots = w.slots) (hcells : t.cells = w.cells)
    (hnow : t.now = w.now) (hprofile : t.profile = { w.profile with state := t.profile.state })
    (hboards : ∀ m, m ≠ n → (t.boards.get m).notices = (w.boards.get m).notices
      ∧ (t.boards.get m).change = (w.boards.get m).change ∧ (t.boards.get m).overrun = (w.boards.get m).overrun
      ∧ (t.boards.get m).fault = (w.boards.get m).fault) : FreedHost s t n := by
  have hlines : t.profile.lines = w.profile.lines := by rw [hprofile]
  have hsettle : t.profile.settle = w.profile.settle := by rw [hprofile]
  have hwindow : t.profile.yieldWindow = w.profile.yieldWindow := by rw [hprofile]
  obtain ⟨hremain, hlost, hrest, hstand, hsamples, hentries⟩ := h
  refine ⟨?_, ?_, ?_, ?_, ?_, fun m hm => ?_⟩
  · simpa only [recordsRemain, Record.passes, hslots, hnow, hsettle, hwindow] using hremain
  · simpa only [recordsLost, hslots] using hlost
  · simpa only [State.lineHeld, State.atRest, hslots, hcells, hlines] using hrest
  · simpa only [cellsStand, lineStands, State.lineHeld, hslots, hcells] using hstand
  · simpa only [samplesKept, hcells] using hsamples
  · obtain ⟨hnotices, hchange, hoverrun, hfault⟩ := hboards m hm
    have := hentries m hm
    simpa only [entriesStand, State.noticeOf, hslots, hnotices, hchange, hoverrun, hfault] using this

/-! ## The end of a session -/

/-- A session ends in state `st`: its host's records are freed, and its board is cleared and takes a flag (R99, R100). -/
def State.leaving (s : State) (n : HostId) (st : SessState) (f : SessionFlags → SessionFlags) : State :=
  (((s.putSession n ((s.sessions.get n).ended st)).freeHost n).clearBoard n).flag n f

/-- A flag that changes nothing leaves a board cleared. -/
theorem State.flag_id_clearBoard (s : State) (n : HostId) : (s.clearBoard n).flag n id = s.clearBoard n := by
  have hboards : ((s.clearBoard n).flag n id).boards = (s.clearBoard n).boards := by
    refine Table.ext_get fun m => ?_
    by_cases hm : m = n
    · subst hm
      have hempty : (s.clearBoard m).boards.get m = Board.empty := Table.get_set_self _ _ _
      refine (Table.get_set_self _ _ _).trans ?_
      rw [hempty]
      rfl
    · exact Table.get_set_ne _ _ hm
  exact congrArg (fun b => { s with boards := b }) hboards

/-- DETACH from ATTACHED is such an end, which the vote is then told of (R100). -/
theorem State.detachAttached_eq (s : State) (n : HostId) : s.detachAttached n = (s.leaving n .detached id).hostLeft n :=
  (congrArg (fun u : State => u.hostLeft n) (State.flag_id_clearBoard _ n)).symm

/-- So is a lapse (R99). -/
theorem State.lapse_eq (s : State) (n : HostId) :
    s.lapse n = (s.leaving n .lapsed fun f => { f with lapsedHeartbeat := true }).hostLeft n := rfl

/-- What stands there: the host's session ended, its board bare but for the flag, and the other boards as the freeing leaves them. -/
theorem State.leaving_spec (s : State) (n : HostId) (st : SessState) (f : SessionFlags → SessionFlags) :
    ∃ w, FreedHost s w n ∧ otherBoardsFollow s w n ∧ (∀ h, boardStands s w h)
      ∧ s.leaving n st f =
        { s with sessions := s.sessions.set n ((s.sessions.get n).ended st), slots := w.slots, eligible := w.eligible
                 cells := w.cells, boards := (s.leaving n st f).boards }
      ∧ w = { s with sessions := s.sessions.set n ((s.sessions.get n).ended st), slots := w.slots, eligible := w.eligible
                     cells := w.cells, boards := w.boards }
      ∧ (∀ h, h ≠ n → (s.leaving n st f).boards.get h = w.boards.get h)
      ∧ (s.leaving n st f).boards.get n = Board.empty.flagged f := by
  let u : State := s.putSession n ((s.sessions.get n).ended st)
  have hleaving : s.leaving n st f = ((u.freeHost n).clearBoard n).flag n f := rfl
  obtain ⟨hfreed, hfollow, hstands⟩ := u.freedHost n
  have htable := (tableOnly.freeHost u n).1
  rw [hleaving]
  generalize u.freeHost n = w at hfreed hfollow hstands htable
  refine ⟨w, ⟨hfreed.remain, hfreed.lost, hfreed.lines, hfreed.stand, hfreed.samples, hfreed.entries⟩, hfollow, hstands, ?_, htable,
    fun h hne => ?_, ?_⟩
  · exact congrArg (fun x : State => { x with boards := ((w.clearBoard n).flag n f).boards }) htable
  · exact (Table.get_set_ne _ _ hne).trans (Table.get_set_ne _ _ hne)
  · refine (Table.get_set_self _ _ _).trans ?_
    rw [show (w.clearBoard n).boards.get n = Board.empty from Table.get_set_self _ _ _]
    rfl

/-! ## What the end of a session leaves -/

/-- What is left from `s` to `t` where host `n`'s session ends in state `st`, its board taking the flag `f` (R99, R100). -/
structure Departed (s t : State) (n : HostId) (st : SessState) (f : SessionFlags → SessionFlags) : Prop where
  frame : t = { s with
    sessions := t.sessions, slots := t.slots, eligible := t.eligible, cells := t.cells, boards := t.boards, vote := t.vote
    profile := { s.profile with state := t.profile.state } }
  session : t.sessions.get n = (s.sessions.get n).ended st
  board : t.boards.get n = Board.empty.flagged f
  freed : FreedHost s t n

/-- Whatever the vote decides, the rest of the end of a session is the same. -/
theorem State.departed (s : State) (n : HostId) {st : SessState} (hst : st ≠ .attached) (f : SessionFlags → SessionFlags) :
    Departed s ((s.leaving n st f).hostLeft n) n st f := by
  obtain ⟨w, hfreed, _, _, hleaving, hw, hothers, hboard⟩ := s.leaving_spec n st f
  generalize s.leaving n st f = x at hleaving hothers hboard
  have hsession : x.sessions.get n = (s.sessions.get n).ended st := by rw [hleaving]; exact Table.get_set_self _ _ _
  have hside := voteSide.hostLeft x n
  obtain ⟨hnow, _, hslots, heligible, hcells, hprofile⟩ := hside.kept
  have hxslots : x.slots = w.slots := by rw [hleaving]
  have hxcells : x.cells = w.cells := by rw [hleaving]
  have hxnow : x.now = w.now := by rw [hleaving, hw]
  have hxprofile : x.profile = w.profile := by rw [hleaving, hw]
  refine ⟨?_, ?_, ?_, ?_⟩
  · have hframe := hside.1.trans (congrArg (fun u : State => { u with
      sessions := (x.hostLeft n).sessions, boards := (x.hostLeft n).boards, vote := (x.hostLeft n).vote
      profile := { u.profile with state := (x.hostLeft n).profile.state } }) hleaving)
    rw [hslots, heligible, hcells, hxslots, hxcells, show x.eligible = w.eligible by rw [hleaving]]
    exact hframe
  · rcases x.hostLeft_session n n with heq | heq <;> rw [heq, hsession]
    rfl
  · rw [State.hostLeft_board (by rw [hsession]; exact hst), hboard]
  · refine hfreed.of_ends (hslots.trans hxslots) (hcells.trans hxcells) (hnow.trans hxnow) (by rw [← hxprofile]; exact hprofile)
      fun m hm => ?_
    rw [← hothers m hm]
    exact hside.board m

/-- Where no vote runs, the others' sessions and the vote stand, and the others' boards as the freeing leaves them. -/
theorem State.departed_idle {s : State} (hidle : s.vote.running = false) (n : HostId) (st : SessState)
    (f : SessionFlags → SessionFlags) :
    ((s.leaving n st f).hostLeft n).vote = s.vote ∧ ((s.leaving n st f).hostLeft n).profile = s.profile
      ∧ otherBoardsFollow s ((s.leaving n st f).hostLeft n) n
      ∧ ∀ m, m ≠ n → ((s.leaving n st f).hostLeft n).sessions.get m = s.sessions.get m
          ∧ (((s.leaving n st f).hostLeft n).boards.get m).flags = (s.boards.get m).flags := by
  obtain ⟨w, _, hfollow, hstands, hleaving, hw, hothers, _⟩ := s.leaving_spec n st f
  generalize s.leaving n st f = x at hleaving hothers
  have hslots : x.slots = w.slots := by rw [hleaving]
  rw [State.hostLeft_of_idle (by rw [hleaving]; exact hidle)]
  refine ⟨by rw [hleaving], by rw [hleaving], fun m hm hstood => ?_, fun m hm => ⟨?_, ?_⟩⟩
  · rw [hothers m hm]
    exact hfollow m hm fun j r hr howner => hslots ▸ hstood j r hr howner
  · rw [hleaving]
    exact Table.get_set_ne _ _ hm
  · rw [hothers m hm]
    exact (hstands m).1

end Sys2Proof.Machine
end

section
/-! SUPPORT. Sessions that end: HEARTBEAT_EXPIRY, DETACH, and the vote they leave (R97, R99, R100, R135). -/

namespace Sys2Proof.Machine

/-! ## Heartbeat expiry -/

/-- The expiry of a heartbeat deadline lapses the session (R99). -/
theorem exec_heartbeatExpiry {s : State} {h : HostId} {d : Nat} (hr : s.resetn = true)
    (hstate : (s.sessions.get h).state = .attached) (hd : (s.sessions.get h).deadline = some d) :
    exec (.heartbeatExpiry h) s =
      .next (((s.reach d).leaving h .lapsed fun f => { f with lapsedHeartbeat := true }).hostLeft h) := by
  rw [← State.lapse_eq]
  simp only [exec, execHeartbeatExpiry, hr, hstate, hd]

/-- Settles O22, by what the end of a session leaves. -/
theorem heartbeatExpiryLapses : Obligations.HeartbeatExpiryLapses := by
  intro s h d hr hstate hd
  have hdeparted := (s.reach d).departed h (st := .lapsed) (by decide) fun f => { f with lapsedHeartbeat := true }
  have hidle (hi : s.vote.running = false) := State.departed_idle (s := s.reach d) hi h .lapsed
    fun f => { f with lapsedHeartbeat := true }
  refine ⟨_, exec_heartbeatExpiry hr hstate hd, ?_⟩
  generalize ((s.reach d).leaving h .lapsed fun f => { f with lapsedHeartbeat := true }).hostLeft h = t at hdeparted hidle
  obtain ⟨hframe, hsession, hboard, hfreed⟩ := hdeparted
  exact ⟨hframe, hsession, hboard, hfreed.remain, hfreed.lost, hfreed.stand, hfreed.samples, hfreed.entries, hfreed.lines, hidle⟩

/-! ## DETACH -/

/-- The refresh of an admission leaves no trace in a session that ends. -/
theorem Session.refreshed_ended (c : Session) (moment : Nat) (st : SessState) : (c.refreshed moment).ended st = c.ended st := by
  unfold Session.refreshed
  split <;> rfl

/-- DETACH is admitted in ATTACHED and in LAPSED under the session's epoch (R92). -/
theorem Session.admits_detach {c : Session} {e : BitVec 16} (hstate : c.state ≠ .detached) (hepoch : e = c.epoch) :
    c.admits .detach e := by
  refine ⟨?_, .inr (.inr hepoch)⟩
  cases h : c.state with
  | detached => exact absurd h hstate
  | attached => exact .inr (.inr (.inr rfl))
  | lapsed => exact .inr (.inr (.inl ⟨rfl, .inr rfl⟩))

/-- A DETACH in ATTACHED is the end of a session, answered with its epoch (R100). -/
theorem exec_detach_attached {s : State} {dt : Nat} {n : HostId} {q : Request} (hr : s.resetn = true) (hwaits : s.waits n q)
    (hkind : q.kind = .detach) (hstate : (s.sessions.get n).state = .attached) (hepoch : q.epoch = (s.sessions.get n).epoch)
    (hpayload : q.payload = []) :
    exec (.detach dt n) s = .next ((((s.admitted dt n).leaving n .detached id).hostLeft n).reply n q
      { status := .ok, payload := u16Bytes (s.sessions.get n).epoch }) := by
  have hadmits : (s.sessions.get n).admits .detach q.epoch := Session.admits_detach (by simp [hstate]) hepoch
  have hhandled : handleDetach (s.admitted dt n) n q (s.sessions.get n) =
      ((s.admitted dt n).detachAttached n, { status := .ok, payload := u16Bytes (s.sessions.get n).epoch }) := by
    simp only [handleDetach, hpayload, hstate, if_true]
  refine congrArg Host.Outcome.next ((State.takeSession_of_admits hr hwaits hkind hadmits dt handleDetach).trans ?_)
  rw [hhandled, State.detachAttached_eq]

/-- A DETACH in LAPSED closes the session, answered with its epoch (R100). -/
theorem exec_detach_lapsed {s : State} {dt : Nat} {n : HostId} {q : Request} (hr : s.resetn = true) (hwaits : s.waits n q)
    (hkind : q.kind = .detach) (hstate : (s.sessions.get n).state = .lapsed) (hepoch : q.epoch = (s.sessions.get n).epoch)
    (hpayload : q.payload = []) :
    exec (.detach dt n) s = .next (((s.admitted dt n).detachLapsed n).reply n q
      { status := .ok, payload := u16Bytes (s.sessions.get n).epoch }) := by
  have hadmits : (s.sessions.get n).admits .detach q.epoch := Session.admits_detach (by simp [hstate]) hepoch
  have hhandled : handleDetach (s.admitted dt n) n q (s.sessions.get n) =
      ((s.admitted dt n).detachLapsed n, { status := .ok, payload := u16Bytes (s.sessions.get n).epoch }) := by
    simp only [handleDetach, hpayload, hstate, if_true, reduceCtorEq, if_false]
  refine congrArg Host.Outcome.next ((State.takeSession_of_admits hr hwaits hkind hadmits dt handleDetach).trans ?_)
  rw [hhandled]

/-- Settles O19, by what the end of a session leaves; in LAPSED the host has no record left. -/
theorem detachEndsASession : Obligations.DetachEndsASession := by
  intro s dt n q hr hwaits hkind hstate hepoch hpayload
  cases h : (s.sessions.get n).state with
  | detached => exact absurd h hstate
  | attached =>
    have hdeparted := (s.admitted dt n).departed n (st := .detached) (by decide) id
    have hidle (hi : s.vote.running = false) := State.departed_idle (s := s.admitted dt n) hi n .detached id
    refine ⟨_, exec_detach_attached hr hwaits hkind h hepoch hpayload, ?_⟩
    generalize ((s.admitted dt n).leaving n .detached id).hostLeft n = v at hdeparted hidle
    obtain ⟨hframe, hsession, hboard, hfreed⟩ := hdeparted
    have hports : v.ports = s.ports := by rw [hframe]; rfl
    rw [State.admitted_session, Session.refreshed_ended] at hsession
    refine ⟨State.reply_of_eq hframe n q _, hsession, ?_, congrArg Board.attn hboard,
      fun _ => ⟨hfreed.remain, hfreed.lost, hfreed.stand, hfreed.samples, hfreed.entries, hfreed.lines⟩, fun hl => (by cases hl),
      fun hi => ?_, posts_reply hports n q (u16Bytes_eq _)⟩
    · exact hboard ▸ ⟨rfl, rfl, rfl, rfl, rfl⟩
    · obtain ⟨hvote, hprofile, hfollow, hothers⟩ := hidle (hi.resolve_right (by simp))
      exact ⟨hvote, hprofile, hfollow, fun m hm => ⟨(hothers m hm).1.trans (s.admitted_session_ne dt hm), (hothers m hm).2⟩⟩
  | lapsed =>
    have hboard : ((s.admitted dt n).detachLapsed n).boards.get n = Board.empty := Table.get_set_self _ _ _
    have hbare : (((s.admitted dt n).detachLapsed n).boards.get n).bare := hboard ▸ ⟨rfl, rfl, rfl, rfl, rfl⟩
    refine ⟨_, exec_detach_lapsed hr hwaits hkind h hepoch hpayload, rfl, ?_, hbare, congrArg Board.attn hboard, fun ha => (by cases ha),
      fun _ => ⟨rfl, rfl, rfl, fun m hm => Table.get_set_ne _ _ hm⟩, fun _ => ⟨rfl, rfl, fun m hm _ => Table.get_set_ne _ _ hm,
        fun m hm => ⟨?_, ?_⟩⟩, posts_reply rfl n q (u16Bytes_eq _)⟩
    · refine (Table.get_set_self _ _ _).trans ?_
      rw [State.admitted_session, Session.refreshed_ended]
      rfl
    · exact (Table.get_set_ne _ _ hm).trans (s.admitted_session_ne dt hm)
    · exact congrArg Board.flags (Table.get_set_ne _ _ hm)

/-! ## The vote a host leaves -/

/-- The sessions, the vote and the session flags after a host has left a running vote (R135). -/
def State.voteLeft (s t : State) (n : HostId) : Prop :=
  if s.vote.required &&& ~~~ bitOf n = 0#4 then
    t.vote = { running := false, deadline := none, required := 0#4, voted := 0#4 } ∧ t.profile = s.profile
      ∧ ∀ h, (t.sessions.get h).voted = false
          ∧ (h ≠ n → t.sessions.get h = { s.sessions.get h with voted := false }
              ∧ (t.boards.get h).flags = (s.boards.get h).flags)
  else if s.vote.voted &&& ~~~ bitOf n = s.vote.required &&& ~~~ bitOf n then
    t.vote = { running := false, deadline := none, required := 0#4, voted := 0#4 }
      ∧ t.profile = { s.profile with state := .opened }
      ∧ ∀ h, (t.sessions.get h).voted = false
          ∧ (h ≠ n → t.sessions.get h = { s.sessions.get h with voted := false }
              ∧ (t.boards.get h).flags = { (s.boards.get h).flags with
                  profileOpened :=
                    (s.boards.get h).flags.profileOpened || decide ((s.sessions.get h).state = .attached) })
  else
    t.vote = { s.vote with required := s.vote.required &&& ~~~ bitOf n, voted := s.vote.voted &&& ~~~ bitOf n }
      ∧ t.profile = s.profile
      ∧ ∀ h, h ≠ n → t.sessions.get h = s.sessions.get h ∧ (t.boards.get h).flags = (s.boards.get h).flags

/-- What the end of a session makes of a running vote (R135), in terms of a state `s` from which `u` differs in the host's own session
alone. -/
theorem State.voteLeft_leaving {s u : State} {n : HostId} (huvote : u.vote = s.vote) (huprofile : u.profile = s.profile)
    (huboards : u.boards = s.boards) (husessions : ∀ m, m ≠ n → u.sessions.get m = s.sessions.get m)
    (hrun : s.vote.running = true) (st : SessState) (f : SessionFlags → SessionFlags) :
    s.voteLeft ((u.leaving n st f).hostLeft n) n := by
  obtain ⟨w, _, _, hstands, hleaving, _, hothers, _⟩ := u.leaving_spec n st f
  generalize u.leaving n st f = x at hleaving hothers
  have hvote : x.vote = s.vote := by rw [hleaving]; exact huvote
  have hprofile : x.profile = s.profile := by rw [hleaving]; exact huprofile
  have hsession (h : HostId) (hne : h ≠ n) : x.sessions.get h = s.sessions.get h := by
    rw [hleaving]
    exact (Table.get_set_ne _ _ hne).trans (husessions h hne)
  have hflags (h : HostId) (hne : h ≠ n) : (x.boards.get h).flags = (s.boards.get h).flags := by
    rw [hothers h hne, ← huboards]
    exact (hstands h).1
  have hend (h : HostId) : x.endVote.sessions.get h = { x.sessions.get h with voted := false } := Table.get_ofFn _ _
  unfold State.voteLeft
  rcases State.hostLeft_cases (s := x) (hvote ▸ hrun) n with ⟨hnone, heq⟩ | ⟨hnone, hwhole, heq, hboards⟩ | ⟨hnone, hwhole, heq⟩ <;>
    rw [hvote] at hnone
  · rw [if_pos hnone, heq]
    refine ⟨rfl, hprofile, fun h => ⟨by rw [hend], fun hne => ⟨by rw [hend, hsession h hne], hflags h hne⟩⟩⟩
  · rw [hvote] at hwhole
    rw [if_neg hnone, if_pos hwhole]
    refine ⟨by rw [heq]; rfl, by rw [heq, ← hprofile], fun h => ⟨?_, fun hne => ⟨?_, ?_⟩⟩⟩
    · rw [heq]
      exact congrArg Session.voted (hend h)
    · rw [heq, ← hsession h hne]
      exact hend h
    · rw [hboards, hsession h hne, ← hflags h hne]
      by_cases hattached : (s.sessions.get h).state = .attached
      · rw [if_pos hattached]
        simp [hattached]
      · rw [if_neg hattached]
        simp [hattached]
  · rw [hvote] at hwhole
    rw [if_neg hnone, if_neg hwhole, heq]
    exact ⟨congrArg (fun v : Vote => v.without n) hvote, hprofile, fun h hne => ⟨hsession h hne, hflags h hne⟩⟩

/-- Settles O23: both commands end the session, and the vote decides. -/
theorem departureDecidesTheVote : Obligations.DepartureDecidesTheVote := by
  intro s c n dt d q hr _ hrun hstate hcase
  rcases hcase with ⟨rfl, hwaits, hkind, hepoch, hpayload⟩ | ⟨rfl, hd⟩
  · have hboard := ((s.admitted dt n).departed n (st := .detached) (by decide) id).board
    have hvote := State.voteLeft_leaving (s := s) (u := s.admitted dt n) rfl rfl rfl (fun m hm => s.admitted_session_ne dt hm)
      hrun .detached id
    refine ⟨_, exec_detach_attached hr hwaits hkind hstate hepoch hpayload, ?_⟩
    generalize ((s.admitted dt n).leaving n .detached id).hostLeft n = v at hboard hvote
    exact ⟨hvote, congrArg Board.flags hboard⟩
  · have hboard := ((s.reach d).departed n (st := .lapsed) (by decide) fun f => { f with lapsedHeartbeat := true }).board
    have hvote := State.voteLeft_leaving (s := s) (u := s.reach d) (n := n) rfl rfl rfl (fun _ _ => rfl) hrun .lapsed
      fun f => { f with lapsedHeartbeat := true }
    refine ⟨_, exec_heartbeatExpiry hr hstate hd, ?_⟩
    generalize ((s.reach d).leaving n .lapsed fun f => { f with lapsedHeartbeat := true }).hostLeft n = v at hboard hvote
    refine ⟨hvote, ?_⟩
    rw [hboard, decide_eq_true rfl]
    rfl

/-! ## ATTACH while ATTACHED -/

/-- A host that restarts stays in a running vote, unvoted, and is told of it (R97, R135). -/
theorem State.hostRestarted_eq {s : State} {n : HostId} (h : s.vote.running = true → has s.vote.required n = true) :
    s.hostRestarted n =
      if s.vote.running then
        { s with vote := { s.vote with voted := s.vote.voted &&& ~~~ bitOf n } }.postVoteOpen n
      else s := by
  unfold State.hostRestarted
  split
  · rename_i hrun
    have hvoted : has (s.vote.voted &&& ~~~ bitOf n) n = false := by simp
    exact State.completionTest_of_unvoted (h hrun) hvoted
  · rfl

/-- A host's board cleared and a context put in place for it, its vote flag having been cleared (R96). -/
def State.renewed (w : State) (n : HostId) (c : Session) : State :=
  ((w.clearBoard n).setVoted n false).putSession n c

/-- The renewal changes the host's context and its board. -/
theorem State.renewed_spec (w : State) (n : HostId) (c : Session) :
    (w.renewed n c).sessions = w.sessions.set n c ∧ (w.renewed n c).boards.get n = Board.empty
      ∧ (∀ h, h ≠ n → (w.renewed n c).boards.get h = w.boards.get h)
      ∧ w.renewed n c = { w with sessions := (w.renewed n c).sessions, boards := (w.renewed n c).boards } :=
  ⟨Table.set_set _ _ _ _, Table.get_set_self _ _ _, fun _ hne => Table.get_set_ne _ _ hne, rfl⟩

/-- A restart frees the host's records, renews its context, and tells the vote (R96). -/
theorem State.restartSession_eq (s : State) (n : HostId) (p : Nat) :
    s.restartSession n p =
      ((s.freeHost n).renewed n ((s.sessions.get n).begun p (s.now + p * 10000))).hostRestarted n := by
  have hkept := (tableOnly.freeHost s n).kept.2.2.2.2.2.1
  have hbegun (w : State) (hw : w.sessions = s.sessions) :
      (((w.clearBoard n).setVoted n false).sessions.get n).begun p (s.now + p * 10000)
        = (s.sessions.get n).begun p (s.now + p * 10000) := by
    have hself : ((w.clearBoard n).setVoted n false).sessions.get n = { w.sessions.get n with voted := false } :=
      Table.get_set_self _ _ _
    rw [hself, hw]
    rfl
  rw [← hbegun _ hkept]
  rfl

/-- What a restart leaves: the host's records freed, its context begun anew, its board and the vote it stays in (R96, R97). -/
theorem State.restartSession_spec {s : State} {n : HostId} (hvote : s.vote.running = true → has s.vote.required n = true)
    (p : Nat) :
    ∃ w, FreedHost s w n ∧ otherBoardsFollow s w n ∧ (∀ h, boardStands s w h)
      ∧ s.restartSession n p =
        { w with sessions := (s.restartSession n p).sessions, boards := (s.restartSession n p).boards
                 vote := (s.restartSession n p).vote }
      ∧ w = { s with slots := w.slots, eligible := w.eligible, cells := w.cells, boards := w.boards }
      ∧ (s.restartSession n p).sessions = s.sessions.set n ((s.sessions.get n).begun p (s.now + p * 10000))
      ∧ (∀ h, h ≠ n → (s.restartSession n p).boards.get h = w.boards.get h)
      ∧ (s.restartSession n p).boards.get n =
          { notices := [], change := 0#48, overrun := 0#48, fault := 0#48, attn := s.vote.running
            flags := { SessionFlags.clear with voteOpen := s.vote.running } }
      ∧ (s.restartSession n p).vote = (if s.vote.running then { s.vote with voted := s.vote.voted &&& ~~~ bitOf n } else s.vote) := by
  obtain ⟨hfreed, hfollow, hstands⟩ := s.freedHost n
  have htable := (tableOnly.freeHost s n).1
  rw [State.restartSession_eq]
  generalize s.freeHost n = w at hfreed hfollow hstands htable
  obtain ⟨hsessions, hboard, hothers, hframe⟩ := w.renewed_spec n ((s.sessions.get n).begun p (s.now + p * 10000))
  have hwvote : w.vote = s.vote := by rw [htable]
  have hwsessions : w.sessions = s.sessions := by rw [htable]
  rw [hwsessions] at hsessions
  generalize w.renewed n ((s.sessions.get n).begun p (s.now + p * 10000)) = x at hsessions hboard hothers hframe
  have hxvote : x.vote = s.vote := by rw [hframe]; exact hwvote
  rw [State.hostRestarted_eq (by rw [hxvote]; exact hvote), hxvote]
  refine ⟨w, hfreed, hfollow, hstands, ?_⟩
  cases s.vote.running with
  | true =>
    let v : Vote := { s.vote with voted := s.vote.voted &&& ~~~ bitOf n }
    let told : State := { x with vote := v }.postVoteOpen n
    have htold : told = { w with sessions := told.sessions, boards := told.boards, vote := told.vote } :=
      congrArg (fun u : State => { u with sessions := x.sessions, boards := told.boards, vote := v }) hframe
    exact ⟨htold, htable, hsessions, fun h hne => (Table.get_set_ne _ _ hne).trans (hothers h hne), State.postVoteOpen_board hboard, rfl⟩
  | false => exact ⟨by simp only [Bool.false_eq_true, if_false]; rw [hframe], htable, hsessions, hothers, hboard, hxvote⟩

/-- Settles O18, by what a restart leaves. -/
theorem attachRestartsASession : Obligations.AttachRestartsASession := by
  intro s dt n q p hr hwaits hkind hstate hp hpayload hvote
  have hadmits := (s.sessions.get n).admits_always (.inl rfl) q.epoch
  have hhandled : handleAttach (s.admitted dt n) n q (s.sessions.get n) =
      ((s.admitted dt n).restartSession n p, attachAnswer ((s.admitted dt n).restartSession n p) n p .attached) := by
    simp only [handleAttach, hpayload, periodArg_twoBytes hp, hstate, if_true]
  have hstep : exec (.attach dt n) s = .next _ :=
    congrArg Host.Outcome.next (State.takeSession_of_admits hr hwaits hkind hadmits dt handleAttach)
  rw [hhandled] at hstep
  obtain ⟨w, hfreed, hfollow, hstands, hframe, hw, hsessions, hothers, hboard, hvotes⟩ :=
    State.restartSession_spec (s := s.admitted dt n) hvote p
  generalize (s.admitted dt n).restartSession n p = v at hstep hframe hsessions hothers hboard hvotes
  have hbegun : ((s.admitted dt n).sessions.get n).begun p (s.now + dt + p * 10000)
      = (s.sessions.get n).begun p (s.now + dt + p * 10000) := by
    obtain ⟨_, hepoch, _⟩ := (s.sessions.get n).refreshed_kept (s.now + dt)
    rw [State.admitted_session]
    simp only [Session.begun, hepoch]
  have hself : v.sessions.get n = (s.sessions.get n).begun p (s.now + dt + p * 10000) := by
    rw [hsessions, Table.get_set_self]
    exact hbegun
  have hother (h : HostId) (hne : h ≠ n) : v.sessions.get h = s.sessions.get h := by
    rw [hsessions, Table.get_set_ne _ _ hne]
    exact s.admitted_session_ne dt hne
  have hslots : v.slots = w.slots := by rw [hframe]
  have hcells : v.cells = w.cells := by rw [hframe]
  have hnow : v.now = w.now := by rw [hframe]
  have hprofile : v.profile = w.profile := by rw [hframe]
  have hleft : FreedHost (s.admitted dt n) v n := hfreed.of_ends hslots hcells hnow (by rw [hprofile])
    fun h hne => by rw [hothers h hne]; exact ⟨rfl, rfl, rfl, rfl⟩
  have hv : v = { s.admitted dt n with
      sessions := v.sessions, slots := v.slots, eligible := v.eligible, cells := v.cells, boards := v.boards, vote := v.vote } := by
    rw [hslots, hcells, show v.eligible = w.eligible by rw [hframe]]
    exact hframe.trans (congrArg (fun u : State => { u with sessions := v.sessions, boards := v.boards, vote := v.vote }) hw)
  refine ⟨_, nextEpoch (s.sessions.get n).epoch, hstep, toNat_nextEpoch _, State.reply_of_eq hv n q _, hself, hother, hleft.remain,
    hleft.lost, hleft.lines, hleft.stand, hleft.samples, fun h hne hstood => ?_, fun h hne => ⟨?_, hleft.entries h hne⟩, hboard, hvotes,
    posts_reply (by rw [hv]; rfl) n q ?_⟩
  · have hsame := hfollow h hne fun j r hr howner => hslots ▸ hstood j r hr howner
    exact (hothers h hne).trans hsame
  · exact (congrArg Board.flags (hothers h hne)).trans (hstands h).1
  · rw [attachAnswer_payload, hself]
    rfl

end Sys2Proof.Machine
end

section
/-! SUPPORT. Frames (R150 to R156): what the port makes of the bits of a write, and what becomes of a frame that passed its checks. -/

namespace Sys2Proof.Machine

/-! ## Bits and bytes -/

/-- The bits of a list of bytes, each byte's most significant first (R150). -/
theorem bitsOf_getElem? (bs : List Byte) (i : Nat) (h : i < 8 * bs.length) :
    (bitsOf bs)[i]? = some ((bs.getD (i / 8) 0#8).getLsbD (7 - i % 8)) := by
  induction bs generalizing i with
  | nil => simp at h
  | cons b bs ih =>
    have hcons : bitsOf (b :: bs) = bitsOfByte b ++ bitsOf bs := List.flatMap_cons
    rw [hcons]
    by_cases hi : i < 8
    · rw [List.getElem?_append_left (by simpa [bitsOfByte] using hi)]
      have hdiv : i / 8 = 0 := by omega
      have hmod : i % 8 = i := by omega
      rw [hdiv, hmod]
      interval_cases i <;> rfl
    · have hlen : (bitsOfByte b).length = 8 := rfl
      rw [List.getElem?_append_right (by omega), hlen, ih (i - 8) (by simp only [List.length_cons] at h; omega)]
      have hdiv : i / 8 = (i - 8) / 8 + 1 := by omega
      have hmod : (i - 8) % 8 = i % 8 := by omega
      rw [hdiv, hmod, List.getD_cons_succ]

/-- The whole bytes of bits that end in part of a byte (R150). -/
theorem bytesOf_bitsOf (bs : List Byte) {rest : List Bool} (h : rest.length < 8) : bytesOf (bitsOf bs ++ rest) = bs := by
  rw [bytesOf_bitsOf_append, bytesOf_short rest h, List.append_nil]

/-- The two bytes of a word make the word (R161). -/
theorem u16Of_u16Bytes (w : BitVec 16) : u16Of (w.extractLsb' 8 8) (w.extractLsb' 0 8) = w := by
  apply BitVec.eq_of_toNat_eq
  rw [toNat_u16Of, BitVec.extractLsb'_toNat, BitVec.extractLsb'_toNat]
  have := w.isLt
  simp only [Nat.shiftRight_eq_div_pow]
  omega

/-! ## The checks of R153 -/

/-- The checks of a frame given by its whole bytes and the bits of a byte cut short (R153). -/
theorem frameOfBits_eq (bs : List Byte) {rest : List Bool} (h : rest.length < 8) :
    frameOfBits (bitsOf bs ++ rest) = checkFrame (bs.take 66) bs.length (decide (rest ≠ [])) := by
  have hcut : decide ((bitsOf bs ++ rest).length % 8 ≠ 0) = decide (rest ≠ []) := by
    rw [List.length_append, length_bitsOf]
    refine decide_eq_decide.mpr ?_
    rw [Ne, Ne, ← List.length_eq_zero_iff]
    omega
  rw [frameOfBits, bytesOf_bitsOf bs h, hcut]

/-- The checks of a frame whose length byte agrees with the bytes received (R152, R153): its CRC byte decides. -/
theorem checkFrame_whole (k e1 e0 sq len : Byte) {payload : List Byte} (c : Byte) (hlen : len.toNat = payload.length)
    (h : payload.length ≤ 60) :
    checkFrame ((k :: e1 :: e0 :: sq :: len :: (payload ++ [c])).take 66) (k :: e1 :: e0 :: sq :: len :: (payload ++ [c])).length
        false
      = if c = crc8 (k :: e1 :: e0 :: sq :: len :: payload) then
          .good { kind := k, epoch := u16Of e1 e0, seq := sq, payload := payload, crc := c }
        else .bad 0x03#8 := by
  have hcount : (k :: e1 :: e0 :: sq :: len :: (payload ++ [c])).length = 6 + payload.length := by
    simp only [List.length_cons, List.length_append, List.length_nil]
    omega
  have hstored : (k :: e1 :: e0 :: sq :: len :: (payload ++ [c])).take 66 = k :: e1 :: e0 :: sq :: len :: (payload ++ [c]) :=
    List.take_of_length_le (by rw [hcount]; omega)
  rw [hstored, hcount]
  simp [checkFrame, hlen, Nat.not_lt.mpr h]

/-- A frame as the host writes it passes the checks (R152, R153). -/
theorem checkFrame_encodeFrame {f : Frame} (h : f.proper) :
    checkFrame ((encodeFrame f).take 66) (encodeFrame f).length false = .good f := by
  obtain ⟨hlength, hcrc⟩ := h
  have hlen : (natByte f.payload.length).toNat = f.payload.length := by
    rw [natByte, BitVec.toNat_ofNat]
    omega
  refine (checkFrame_whole f.kind _ _ f.seq _ f.crc hlen hlength).trans ((if_pos hcrc).trans ?_)
  rw [u16Of_u16Bytes]

/-- The port reads a frame as the host wrote it (R152, R153). -/
theorem frameOfBits_encodeFrame {f : Frame} (h : f.proper) : frameOfBits (bitsOf (encodeFrame f)) = .good f := by
  have hbits := frameOfBits_eq (encodeFrame f) (rest := []) (by decide)
  rw [List.append_nil] at hbits
  exact hbits.trans (checkFrame_encodeFrame h)

/-- The first check of R153 that fails gives the reason the port answers. -/
theorem checkFrame_of_fault {bs : List Byte} {rest : List Bool} {reason : Byte} (h : frameFault bs rest = some reason) :
    checkFrame (bs.take 66) bs.length (decide (rest ≠ [])) = .bad reason := by
  unfold frameFault at h
  by_cases hshort : rest ≠ [] ∨ bs.length < 6
  · rw [if_pos hshort] at h
    have hcut : (decide (rest ≠ []) || decide (bs.length < 6)) = true := by simpa using hshort
    rw [← Option.some.inj h]
    exact if_pos hcut
  · rw [if_neg hshort] at h
    rw [not_or, not_lt] at hshort
    obtain ⟨hrest, hsix⟩ := hshort
    match bs, hsix, h with
    | k :: e1 :: e0 :: sq :: len :: b :: tail, _, h =>
      change (if 60 < len.toNat then _ else _) = _ at h
      have hcut : ¬ ((decide (rest ≠ []) || decide ((k :: e1 :: e0 :: sq :: len :: b :: tail).length < 6)) = true) := by
        simpa using hrest
      by_cases hlong : 60 < len.toNat
      · rw [if_pos hlong] at h
        rw [← Option.some.inj h]
        exact (if_neg hcut).trans (if_pos hlong)
      · rw [if_neg hlong] at h
        by_cases hcount : (k :: e1 :: e0 :: sq :: len :: b :: tail).length ≠ 6 + len.toNat
        · have hreason : (0x01#8 : Byte) = reason := Option.some.inj ((if_pos hcount).symm.trans h)
          rw [← hreason]
          exact (if_neg hcut).trans ((if_neg hlong).trans (if_pos hcount))
        · replace h := (if_neg hcount).symm.trans h
          rw [not_not] at hcount
          obtain ⟨payload, c, hlast⟩ : ∃ payload c, b :: tail = payload ++ [c] :=
            ⟨_, _, (List.dropLast_append_getLast (List.cons_ne_nil b tail)).symm⟩
          rw [hlast] at h hcount ⊢
          simp only [List.length_cons, List.length_append, List.length_nil] at hcount
          have hnone : decide (rest ≠ []) = false := by simpa using hrest
          rw [hnone, checkFrame_whole k e1 e0 sq len c (by omega) (by omega)]
          simp only [ne_eq, ← List.cons_append, List.getLast?_concat, List.dropLast_concat, Option.some.injEq] at h
          by_cases hcrc : c = crc8 (k :: e1 :: e0 :: sq :: len :: payload)
          · simp [hcrc] at h
          · rw [if_neg hcrc]
            simpa [hcrc] using h

/-- Settles O5: the bytes of a frame are those of R152, `bitsOf` shifts each most significant bit first, and the checks read the
frame back. -/
theorem requestFramesReadAsWritten : Obligations.RequestFramesReadAsWritten := by
  unfold Obligations.RequestFramesReadAsWritten
  intro f
  refine ⟨?_, fun i hi => bitsOf_getElem? _ i hi, frameOfBits_encodeFrame⟩
  have hepoch : twoBytes f.epoch.toNat = u16Bytes f.epoch := by
    rw [← natBytes2_eq, natBytes2, BitVec.ofNat_toNat, BitVec.setWidth_eq]
  rw [hepoch, encodeFrame, Frame.covered, natByte]
  simp

/-! ## Writes a port accepts -/

/-- The state in which an idle port checks the frame of a write (R151). -/
def State.receiving (s : State) (dt : Nat) (n : HostId) (bs : List Byte) (rest : List Bool) : State :=
  (s.elapse dt).putPort n ((s.ports.get n).received bs rest)

/-- A write on an idle port is received and checked at its end (R151, R153). -/
theorem exec_requestFrame_of_idle {s : State} {n : HostId} (hr : s.resetn = true) (hidle : (s.ports.get n).link = .idle)
    (dt : Nat) (bs : List Byte) {rest : List Bool} (h : rest.length < 8) :
    exec (.requestFrame dt n false (bitsOf bs ++ rest)) s = .next ((s.receiving dt n bs rest).frameEnd n (bitsOf bs ++ rest)) := by
  have hport : (s.ports.get n).receive (bitsOf bs ++ rest) = (s.ports.get n).received bs rest := by
    rw [Port.receive, Port.received, bytesOf_bitsOf bs h, List.length_append, length_bitsOf, ones, Nat.add_assoc]
  change Host.Outcome.next ((s.elapse dt).transact n false (writeOpener ++ (bitsOf bs ++ rest))) = _
  rw [State.transact_write, State.elapse_resetn, hr, State.write_of_not_busy (s := s.elapse dt) (by simp [hidle])]
  exact congrArg (fun p => Host.Outcome.next (((s.elapse dt).putPort n p).frameEnd n (bitsOf bs ++ rest))) hport

/-- A proper frame on an idle port goes on past the checks (R153). -/
theorem exec_requestFrame_of_proper {s : State} {n : HostId} {f : Frame} (hr : s.resetn = true)
    (hidle : (s.ports.get n).link = .idle) (dt : Nat) (h : f.proper) :
    exec (.requestFrame dt n false (bitsOf (encodeFrame f))) s = .next ((s.receiving dt n (encodeFrame f) []).acceptFrame n f) := by
  have hexec := exec_requestFrame_of_idle hr hidle dt (encodeFrame f) (rest := []) (by decide)
  rw [List.append_nil] at hexec
  rw [hexec, State.frameEnd, frameOfBits_encodeFrame h]

/-- The port that checks a frame. -/
theorem State.receiving_port (s : State) (dt : Nat) (n : HostId) (bs : List Byte) (rest : List Bool) :
    (s.receiving dt n bs rest).ports.get n = (s.ports.get n).received bs rest := Table.get_set_self _ _ _

/-- What its check puts in place is the state at hand with that port. -/
theorem State.receiving_putPort (s : State) (dt : Nat) (n : HostId) (bs : List Byte) (rest : List Bool) (p : Port) :
    (s.receiving dt n bs rest).putPort n p = { s.elapse dt with ports := ((s.receiving dt n bs rest).putPort n p).ports } := rfl

/-- The other ports are not touched. -/
theorem State.receiving_putPort_ne (s : State) (dt : Nat) {m n : HostId} (h : m ≠ n) (bs : List Byte) (rest : List Bool) (p : Port) :
    ((s.receiving dt n bs rest).putPort n p).ports.get m = s.ports.get m :=
  (Table.get_set_ne _ _ h).trans (Table.get_set_ne _ _ h)

/-- A frame that repeats the saved request is answered by the saved response (R155). -/
theorem State.acceptFrame_of_repeats {s : State} {n : HostId} {f : Frame} {r : Response} (h : (s.ports.get n).repeats f)
    (hsaved : (s.ports.get n).saved = some r) : s.acceptFrame n f = s.putPort n ((s.ports.get n).replayed r) := by
  obtain ⟨_, hsig⟩ := h
  simp [State.acceptFrame, hsaved, hsig, frameSignature]

/-- A frame that repeats nothing and is of a listed kind is judged by the Session Unit (R156). -/
theorem State.acceptFrame_of_kind {s : State} {n : HostId} {f : Frame} {k : Kind} (h : ¬ (s.ports.get n).repeats f)
    (hkind : kindOf f.kind = some k) : s.acceptFrame n f = s.judge n f k := by
  unfold State.acceptFrame
  simp only [hkind]
  split
  next r sig hsaved hsig => exact if_neg fun heq => h ⟨by simp [hsaved], by rw [hsig, heq]; rfl⟩
  next => rfl

/-- A frame that repeats nothing and is of no listed kind is answered UNKNOWN_KIND (R156). -/
theorem State.acceptFrame_of_unknown {s : State} {n : HostId} {f : Frame} (h : ¬ (s.ports.get n).repeats f)
    (hkind : kindOf f.kind = none) :
    s.acceptFrame n f = s.putPort n ((s.ports.get n).answer f.seq (some (frameSignature f)) (bare .unknownKind)) := by
  unfold State.acceptFrame
  simp only [hkind]
  split
  next r sig hsaved hsig => exact if_neg fun heq => h ⟨by simp [hsaved], by rw [hsig, heq]; rfl⟩
  next => rfl

/-- A frame of a kind the table does not list is answered UNKNOWN_KIND (R156). -/
theorem kindOf_eq_none {b : Byte} (h : ∀ k : Kind, b ≠ BitVec.ofNat 8 k.number) : kindOf b = none := by
  cases hk : kindOf b with
  | none => rfl
  | some k => exact absurd (by rw [← code_of_kindOf hk, kind_code_eq]) (h k)

/-- The kind the table lists for a code. -/
theorem kindOf_number (k : Kind) : kindOf (BitVec.ofNat 8 k.number) = some k := by
  rw [← kind_code_eq, kindOf_code]

/-- A request the Session Unit turns away at the port is answered there (R92). -/
theorem State.judge_of_refused {s : State} {n : HostId} {f : Frame} {k : Kind} {st : Status}
    (h : admission (s.sessions.get n) k f.epoch = some st) : s.judge n f k = s.reply n (frameRequest f k none) (bare st) := by
  simp only [State.judge, h]

/-- A request the Session Unit lets through waits in its port, its session refreshed where another block owns its kind (R92, R93). -/
theorem State.judge_of_admits {s : State} {n : HostId} {f : Frame} {k : Kind} (h : (s.sessions.get n).admits k f.epoch) :
    s.judge n f k =
      if k.owner = .sessionUnit then s.putPort n ((s.ports.get n).handOn (frameRequest f k none))
      else (s.refresh n).putPort n ((s.ports.get n).handOn (frameRequest f k (some (s.sessions.get n).state))) := by
  simp only [State.judge, (admission_eq_none _ _ _).mpr h]

/-! ## Settled -/

/-- Settles O7: the checks of R153 find the first failure's reason, and the answer is posted at the port. -/
theorem malformedFrameAnswered : Obligations.MalformedFrameAnswered := by
  unfold Obligations.MalformedFrameAnswered
  intro s dt n bs rest reason hr hidle hrest hfault
  have hend : (s.receiving dt n bs rest).frameEnd n (bitsOf bs ++ rest) = (s.receiving dt n bs rest).putPort n
      (((s.ports.get n).received bs rest).answer (bs.getD 3 0#8) none { status := .frameError, payload := [reason] }) := by
    rw [State.frameEnd, frameOfBits_eq bs hrest, checkFrame_of_fault hfault, State.receiving_port, bytesOf_bitsOf bs hrest,
      errorEcho]
  refine ⟨_, (exec_requestFrame_of_idle hr hidle dt bs hrest).trans (congrArg Host.Outcome.next hend),
    State.receiving_putPort _ _ _ _ _ _, Table.get_set_self _ _ _, fun m hm => State.receiving_putPort_ne s dt hm _ _ _, ?_⟩
  rintro f ⟨-, hsig⟩
  rw [State.putPort, Table.get_set_self] at hsig
  cases hsig

/-- Settles O9: the frame passes the checks, repeats nothing, and the Session Unit lets it through. -/
theorem frameHandedOn : Obligations.FrameHandedOn := by
  unfold Obligations.FrameHandedOn
  intro s dt n f k hr hidle hproper hkind hrepeats hadmits
  have hport := s.receiving_port dt n (encodeFrame f) []
  have hend : (s.receiving dt n (encodeFrame f) []).acceptFrame n f = (s.receiving dt n (encodeFrame f) []).judge n f k :=
    State.acceptFrame_of_kind (by rw [hport]; exact hrepeats) (by rw [hkind, kindOf_number])
  rw [State.judge_of_admits (s := s.receiving dt n (encodeFrame f) []) hadmits, hport] at hend
  refine ⟨_, (exec_requestFrame_of_proper hr hidle dt hproper).trans (congrArg Host.Outcome.next hend), ?_⟩
  by_cases hown : k.owner = .sessionUnit
  · simp only [if_pos hown]
    exact ⟨rfl, Table.get_set_self _ _ _, fun m hm => State.receiving_putPort_ne s dt hm _ _ _, rfl, fun _ _ => rfl⟩
  · simp only [if_neg hown, State.refresh_eq]
    exact ⟨rfl, Table.get_set_self _ _ _, fun m hm => State.receiving_putPort_ne s dt hm _ _ _, Table.get_set_self _ _ _,
      fun m hm => Table.get_set_ne _ _ hm⟩

/-- The answer to a frame that is not handed on (R92, R156). -/
theorem State.acceptFrame_of_refused {s : State} {n : HostId} {f : Frame} {st : Status} (hrepeats : ¬ (s.ports.get n).repeats f)
    (h : ((∀ k : Kind, f.kind ≠ BitVec.ofNat 8 k.number) ∧ st = .unknownKind)
      ∨ (∃ k : Kind, f.kind = BitVec.ofNat 8 k.number ∧ admission (s.sessions.get n) k f.epoch = some st)) :
    s.acceptFrame n f = s.putPort n ((s.ports.get n).answer f.seq (some (frameSignature f)) (bare st)) := by
  rcases h with ⟨hnone, rfl⟩ | ⟨k, hkind, hrefused⟩
  · exact State.acceptFrame_of_unknown hrepeats (kindOf_eq_none hnone)
  · have hcode : frameSignature f = (frameRequest f k none).signature := by
      rw [frameSignature, hkind, ← kind_code_eq]
      rfl
    rw [State.acceptFrame_of_kind hrepeats (by rw [hkind, kindOf_number]), hcode]
    exact State.judge_of_refused hrefused

/-- Settles O10: an unlisted kind is answered by the port, one the Session Unit turns away by `admission`'s status. -/
theorem frameRefused : Obligations.FrameRefused := by
  unfold Obligations.FrameRefused
  intro s dt n f st hr hidle hproper hrepeats hwhy
  have hport := s.receiving_port dt n (encodeFrame f) []
  have hend := State.acceptFrame_of_refused (s := s.receiving dt n (encodeFrame f) []) (n := n) (f := f) (st := st)
    (by rw [hport]; exact hrepeats)
    (hwhy.imp_right fun ⟨k, hkind, hrefused⟩ => ⟨k, hkind, admission_of_refused hrefused⟩)
  rw [hport] at hend
  exact ⟨_, (exec_requestFrame_of_proper hr hidle dt hproper).trans (congrArg Host.Outcome.next hend), rfl,
    Table.get_set_self _ _ _, fun m hm => State.receiving_putPort_ne s dt hm _ _ _⟩

/-- A frame that repeats nothing leaves its port PENDING, or ANSWERED with a new response saved under its signature (R155, R156). -/
theorem State.acceptFrame_fresh {s : State} {n : HostId} {f : Frame} (h : ¬ (s.ports.get n).repeats f) :
    ((s.acceptFrame n f).ports.get n).link = .pending
      ∨ (((s.acceptFrame n f).ports.get n).link = .answered ∧ ((s.acceptFrame n f).ports.get n).replay = false
        ∧ ((s.acceptFrame n f).ports.get n).saved = ((s.acceptFrame n f).ports.get n).response
        ∧ ((s.acceptFrame n f).ports.get n).signature = some (frameSignature f)) := by
  have hanswered : ∀ st, s.acceptFrame n f = s.putPort n ((s.ports.get n).answer f.seq (some (frameSignature f)) (bare st)) →
      ((s.acceptFrame n f).ports.get n).link = .answered ∧ ((s.acceptFrame n f).ports.get n).replay = false
        ∧ ((s.acceptFrame n f).ports.get n).saved = ((s.acceptFrame n f).ports.get n).response
        ∧ ((s.acceptFrame n f).ports.get n).signature = some (frameSignature f) := by
    intro st heq
    rw [heq, State.putPort, Table.get_set_self]
    exact ⟨rfl, rfl, rfl, rfl⟩
  cases hkind : kindOf f.kind with
  | none =>
    exact .inr (hanswered .unknownKind (State.acceptFrame_of_unknown h hkind))
  | some k =>
    have hnumber : f.kind = BitVec.ofNat 8 k.number := by rw [← code_of_kindOf hkind, kind_code_eq]
    cases hadmission : admission (s.sessions.get n) k f.epoch with
    | some st => exact .inr (hanswered st (State.acceptFrame_of_refused h (.inr ⟨k, hnumber, hadmission⟩)))
    | none =>
      left
      rw [State.acceptFrame_of_kind h hkind, State.judge_of_admits ((admission_eq_none _ _ _).mp hadmission)]
      split <;> exact congrArg Port.link (Table.get_set_self _ _ _)

/-- Settles O11: the signature of the saved response decides whether a frame is replayed. -/
theorem repeatedRequestReplayed : Obligations.RepeatedRequestReplayed := by
  unfold Obligations.RepeatedRequestReplayed
  intro s dt n f hr hidle hproper
  have hport := s.receiving_port dt n (encodeFrame f) []
  refine ⟨_, exec_requestFrame_of_proper hr hidle dt hproper, ?_⟩
  by_cases hrepeats : (s.ports.get n).repeats f
  · rw [if_pos hrepeats]
    obtain ⟨r, hsaved⟩ := Option.isSome_iff_exists.mp hrepeats.1
    rw [State.acceptFrame_of_repeats (r := r) (by rw [hport]; exact hrepeats) (by rw [hport]; exact hsaved), hport, hsaved]
    exact ⟨rfl, Table.get_set_self _ _ _, fun m hm => State.receiving_putPort_ne s dt hm _ _ _⟩
  · rw [if_neg hrepeats]
    exact State.acceptFrame_fresh (by rw [hport]; exact hrepeats)

/-- A transaction that meets RESETn low, or was begun before it rose, drives nothing (R150). -/
theorem State.transact_of_reset {s : State} {early : Bool} (h : s.resetn = false ∨ early = true) (n : HostId) (bits : List Bool) :
    s.transact n early bits = s.undriven n := by
  unfold State.transact
  rw [if_neg]
  rcases h with h | h <;> simp [h]

/-- A transaction that changes the record of SDO alone. -/
theorem exec_recorded {s : State} {c : Instr} {dt : Nat} {n : HostId} {sdo : List Bool}
    (h : exec c s = .next ((s.elapse dt).putPort n { s.ports.get n with sdo := sdo })) :
    ∃ t, exec c s = .next t ∧ t = { s.elapse dt with ports := t.ports } ∧ t.ports.get n = { s.ports.get n with sdo := sdo }
      ∧ ∀ m, m ≠ n → t.ports.get m = s.ports.get m :=
  ⟨_, h, rfl, Table.get_set_self _ _ _, fun _ hm => Table.get_set_ne _ _ hm⟩

/-- A transaction with another opener shifts 1s where RESETn is high, and drives nothing where it is low (R150). -/
theorem exec_ignoredTransaction_of_other {bits : List Bool} (hwrite : bits.take 8 ≠ writeOpener) (hread : bits.take 8 ≠ readOpener)
    (s : State) (dt : Nat) (n : HostId) :
    exec (.ignoredTransaction dt n bits) s = .next ((s.elapse dt).putPort n
      { s.ports.get n with sdo := if s.resetn = true then List.replicate bits.length true else [] }) := by
  change Host.Outcome.next ((s.elapse dt).transact n false bits) = _
  rw [State.transact_other _ _ _ _ hwrite hread, State.elapse_resetn]
  cases s.resetn <;> rfl

/-- Settles O13: the opener of the bits decides, and a transaction that meets RESETn low, or was begun before it rose, drives
nothing. -/
theorem ignoredTransactionsChangeNothing : Obligations.IgnoredTransactionsChangeNothing := by
  unfold Obligations.IgnoredTransactionsChangeNothing
  intro s c dt n bits early clocks
  refine ⟨?_, rfl, ?_⟩
  · rintro (⟨rfl, hwrite, hread⟩ | ⟨rfl | rfl, hreset⟩)
    · simpa using exec_recorded (exec_ignoredTransaction_of_other hwrite hread s dt n)
    · rw [if_neg (by simp)]
      exact exec_recorded (congrArg Host.Outcome.next (State.transact_of_reset (s := s.elapse dt) hreset n _))
    · rw [if_neg (by simp)]
      exact exec_recorded (congrArg Host.Outcome.next (State.transact_of_reset (s := s.elapse dt) hreset n _))
  · change Host.Outcome.next ((s.elapse dt).transact n false (readOpener ++ bits))
      = .next ((s.elapse dt).transact n false (readOpener ++ List.replicate bits.length false))
    rw [State.transact_read, State.transact_read, List.length_replicate]

end Sys2Proof.Machine
end

section
/-! SUPPORT. The administrative requests and READ PROFILE (R123 to R132, R147): what their payloads are read as, and what the edits leave. -/

namespace Sys2Proof.Machine

/-! ## Payloads -/

/-- The payload SET BOND is refused (R128). -/
theorem bondArgs_eq_none (p : List Byte) :
    bondArgs p = none ↔ p.length ≠ 2 ∨ 12 ≤ (p.getD 0 0#8).toNat ∨ 2 ≤ (p.getD 1 0#8).toNat := by
  match p with
  | [] | [_] | _ :: _ :: _ :: _ => simp [bondArgs]
  | [g, v] =>
    simp only [bondArgs, List.length_cons, List.length_nil, ne_eq, not_true, false_or, List.getD_cons_zero, List.getD_cons_succ]
    by_cases hg : g.toNat < 12
    · by_cases hv : v.toNat ≤ 1
      · simp [hg, hv]
      · simp [hg, hv]
        omega
    · simp [hg, Nat.le_of_not_lt hg]

/-- A payload SET BOND takes names its group and says whether the group is to be bonded (R128). -/
theorem bondArgs_eq_some {p : List Byte} {a : GroupId × Bool} (h : bondArgs p = some a) :
    (p.getD 0 0#8).toNat = a.1.val ∧ a.2 = decide (p.getD 1 0#8 = 1#8) := by
  match p with
  | [] | [_] | _ :: _ :: _ :: _ => simp [bondArgs] at h
  | [g, v] =>
    simp only [bondArgs, Option.dite_none_right_eq_some, Option.ite_none_right_eq_some, Option.some.injEq] at h
    obtain ⟨hg, hv, rfl⟩ := h
    refine ⟨rfl, decide_eq_decide.mpr ?_⟩
    exact BitVec.toNat_inj (x := v) (y := 1#8)

/-- The payload SET HOST PROFILE is refused (R129). -/
theorem hostArgs_eq_none (p : List Byte) :
    hostArgs p = none ↔ p.length ≠ 4 ∨ 4 ≤ (p.getD 0 0#8).toNat ∨ 4 ≤ (p.getD 1 0#8).toNat ∨ (p.getD 2 0#8).toNat = 0
      ∨ 32 < (p.getD 2 0#8).toNat ∨ 2 ≤ (p.getD 3 0#8).toNat := by
  match p with
  | [] | [_] | [_, _] | [_, _, _] | _ :: _ :: _ :: _ :: _ :: _ => simp [hostArgs]
  | [h, pr, quota, a] =>
    by_cases hh : h.toNat < 4
    · by_cases hp : pr.toNat < 4
      · by_cases hrest : 1 ≤ quota.toNat ∧ quota.toNat ≤ 32 ∧ a.toNat ≤ 1
        · simp [hostArgs, hh, hp, hrest]
          omega
        · simp [hostArgs, hh, hp, hrest]
          omega
      · simp [hostArgs, hh, hp, Nat.le_of_not_lt hp]
    · simp [hostArgs, hh, Nat.le_of_not_lt hh]

/-- A payload SET HOST PROFILE takes names the host and its three items (R129). -/
theorem hostArgs_eq_some {p : List Byte} {a : HostArgs} (h : hostArgs p = some a) :
    (p.getD 0 0#8).toNat = a.host.val ∧ (p.getD 1 0#8).toNat = a.priority.val ∧ (p.getD 2 0#8).toNat = a.quota
      ∧ a.admin = decide (p.getD 3 0#8 = 1#8) ∧ (a.admin = false ↔ p.getD 3 0#8 = 0#8) := by
  match p with
  | [] | [_] | [_, _] | [_, _, _] | _ :: _ :: _ :: _ :: _ :: _ => simp [hostArgs] at h
  | [host, pr, quota, adm] =>
    simp only [hostArgs, Option.dite_none_right_eq_some, Option.ite_none_right_eq_some, Option.some.injEq] at h
    obtain ⟨hh, hp, ⟨_, _, ha⟩, rfl⟩ := h
    have hone : adm.toNat = 1 ↔ adm = 1#8 := BitVec.toNat_inj (x := adm) (y := 1#8)
    have hzero : adm.toNat = 0 ↔ adm = 0#8 := BitVec.toNat_inj (x := adm) (y := 0#8)
    refine ⟨rfl, rfl, rfl, decide_eq_decide.mpr hone, ?_⟩
    change decide (adm.toNat = 1) = false ↔ adm = 0#8
    rw [decide_eq_false_iff_not, ← hzero]
    omega

/-- The payload SET TIMING is refused (R147). -/
theorem timingArgs_eq_none (p : List Byte) :
    timingArgs p = none ↔ p.length ≠ 4 ∨ 256 * (p.getD 1 0#8).toNat + (p.getD 2 0#8).toNat = 0
      ∨ 1000 < 256 * (p.getD 1 0#8).toNat + (p.getD 2 0#8).toNat ∨ (p.getD 3 0#8).toNat = 0 ∨ 100 < (p.getD 3 0#8).toNat := by
  match p with
  | [] | [_] | [_, _] | [_, _, _] | _ :: _ :: _ :: _ :: _ :: _ => simp [timingArgs]
  | [st, hi, lo, v] =>
    simp [timingArgs, toNat_u16Of]
    omega

/-- A payload SET TIMING takes gives the three values (R147). -/
theorem timingArgs_eq_some {p : List Byte} {a : TimingArgs} (h : timingArgs p = some a) :
    a = { settle := (p.getD 0 0#8).toNat, yieldWindow := 256 * (p.getD 1 0#8).toNat + (p.getD 2 0#8).toNat
          voteWindow := (p.getD 3 0#8).toNat }
      ∧ natByte a.settle :: natBytes2 a.yieldWindow ++ [natByte a.voteWindow] = p := by
  match p with
  | [] | [_] | [_, _] | [_, _, _] | _ :: _ :: _ :: _ :: _ :: _ => simp [timingArgs] at h
  | [st, hi, lo, v] =>
    simp only [timingArgs, Option.ite_none_right_eq_some, Option.some.injEq] at h
    obtain ⟨_, rfl⟩ := h
    refine ⟨by rw [toNat_u16Of]; rfl, ?_⟩
    have hbyte (b : Byte) : natByte b.toNat = b := by rw [natByte, BitVec.ofNat_toNat, BitVec.setWidth_eq]
    have hword : natBytes2 (u16Of hi lo).toNat = [hi, lo] := by
      rw [natBytes2_eq, toNat_u16Of, twoBytes]
      simp only [List.cons.injEq, and_true]
      constructor <;> apply BitVec.eq_of_toNat_eq <;> rw [BitVec.toNat_ofNat] <;> omega
    rw [hbyte, hbyte, hword]
    rfl

/-- The section READ PROFILE is asked for (R131). -/
theorem sectionArg_eq (p : List Byte) :
    sectionArg p = if p = [0#8] then some 0 else if p = [1#8] then some 1 else if p = [2#8] then some 2 else none := by
  match p with
  | [] | _ :: _ :: _ => simp [sectionArg]
  | [x] =>
    have heq (y : Byte) : [x] = [y] ↔ x.toNat = y.toNat := by rw [BitVec.toNat_inj, List.cons.injEq, and_iff_left rfl]
    simp only [sectionArg, heq]
    match x.toNat with
    | 0 | 1 | 2 => rfl
    | n + 3 => simp

/-! ## Checks 1 to 3 of R124 -/

/-- An edit that passes the checks is made (R124). -/
theorem profileEdit_of_passes {α : Type} {s : State} {n : HostId} {args : Option α} {a : α} (hadmin : has s.profile.admin n = true)
    (hopen : s.profile.state = .opened) (hargs : args = some a) (f : α → State × Answer) : profileEdit s n args f = f a := by
  simp only [profileEdit, State.isAdmin, hadmin, hopen, hargs, if_true]

/-- An edit that fails one is answered by the first (R124). -/
theorem profileEdit_of_refused {α : Type} {s : State} {k : Kind} {n : HostId} {p : List Byte} {args : Option α} {st : Status}
    (hargs : editMalformed k p → args = none) (h : s.editRefused k n p st) (f : α → State × Answer) :
    profileEdit s n args f = (s, bare st) := by
  unfold profileEdit State.isAdmin
  rcases h with ⟨hadmin, rfl⟩ | ⟨hadmin, hlocked, rfl⟩ | ⟨hadmin, hopen, hbad, rfl⟩
  · simp [hadmin]
  · simp [hadmin, hlocked]
  · simp [hadmin, hopen, hargs hbad]

/-! ## SET BOND -/

/-- A line entry names a line of a group where the group is that line's (R18, R128). -/
theorem namesSome_iff (r : Record) (g : GroupId) : namesSome r.lines g = true ↔ ∃ l : LineId, l.val / 4 = g.val ∧ r.names l = true := by
  have hgroup (l : LineId) : groupOf l = g ↔ l.val / 4 = g.val := Fin.ext_iff
  simp only [namesSome, List.any_eq_true, beq_iff_eq, hgroup, Record.names_iff]
  constructor
  · rintro ⟨e, he, hg⟩
    exact ⟨e.line, hg, e, he, rfl⟩
  · rintro ⟨_, hg, e, he, rfl⟩
    exact ⟨e, he, hg⟩

/-- Some record names a line of the group (R128). -/
theorem groupBusy_iff (s : State) (g : GroupId) :
    groupBusy s g = true ↔ ∃ i, ∃ r ∈ s.slots.get i, ∃ l : LineId, l.val / 4 = g.val ∧ r.names l = true := by
  simp only [groupBusy, List.any_eq_true, Prod.exists, mem_recordsOf, namesSome_iff, ← exists_and_left]

/-- A group in use is not bonded (R128). -/
theorem handleSetBond_of_busy {s : State} {n : HostId} {q : Request} {a : GroupId × Bool} (hadmin : has s.profile.admin n = true)
    (hopen : s.profile.state = .opened) (hargs : bondArgs q.payload = some a)
    (h : (a.2 && !has s.profile.bonded a.1 && groupBusy s a.1) = true) : handleSetBond s n q = (s, bare .groupBusy) :=
  (profileEdit_of_passes hadmin hopen hargs _).trans (if_pos h)

/-- A group is bonded or not as the value says (R128). -/
theorem handleSetBond_of_free {s : State} {n : HostId} {q : Request} {a : GroupId × Bool} (hadmin : has s.profile.admin n = true)
    (hopen : s.profile.state = .opened) (hargs : bondArgs q.payload = some a)
    (h : ¬ (a.2 && !has s.profile.bonded a.1 && groupBusy s a.1) = true) :
    handleSetBond s n q = (s.setBonded a.1 a.2, bare .ok) :=
  (profileEdit_of_passes hadmin hopen hargs _).trans (if_neg h)

/-- A request handled is taken, and answered from the state its handling leaves (R94, R156). -/
theorem State.takeChosen_of_handled {s u : State} {k : Kind} {n : HostId} {q : Request} (h : s.takes k n q) (dt : Nat)
    {f : State → HostId → Request → State × Answer} {a : Answer} (hf : f (s.turn dt k n) n q = (u, a)) :
    (s.elapse dt).takeChosen k f = u.reply n q a := by
  rw [State.takeChosen_of_takes h, hf]

/-- The bonds with one group's replaced. -/
theorem has_setBonded (s : State) (g : GroupId) (v : Bool) (x : GroupId) :
    has (s.setBonded g v).profile.bonded x = if x = g then v else has s.profile.bonded x := by
  cases v <;> by_cases h : x = g <;> simp [State.setBonded, h]

/-- Settles O44: the group and the value are read off the payload, and `setBonded` writes the bond alone. -/
theorem setBondBindsTheGroup : Obligations.SetBondBindsTheGroup := by
  unfold Obligations.SetBondBindsTheGroup
  intro s dt n q g htakes ⟨hadmin, hopen, hgood⟩ hg
  cases hargs : bondArgs q.payload with
  | none => exact absurd (.inr (.inl ⟨rfl, (bondArgs_eq_none _).mp hargs⟩)) hgood
  | some a =>
    obtain ⟨hgroup, hvalue⟩ := bondArgs_eq_some hargs
    obtain rfl : a.1 = g := Fin.ext (hgroup.symm.trans hg)
    have hbusy : (a.2 && !has s.profile.bonded a.1 && groupBusy s a.1) = true ↔ q.payload.getD 1 0#8 = 1#8
        ∧ has s.profile.bonded a.1 = false ∧ ∃ i, ∃ r ∈ s.slots.get i, ∃ l : LineId, l.val / 4 = a.1.val ∧ r.names l = true := by
      rw [← groupBusy_iff, hvalue]
      simp [and_assoc]
    simp only [← hbusy, ← hvalue]
    split
    next h =>
      exact ⟨_, rfl, State.takeChosen_onlyAnswers htakes dt
        (handleSetBond_of_busy (s := s.turn dt .setBond n) hadmin hopen hargs h)⟩
    next h =>
      refine ⟨_, congrArg Host.Outcome.next (State.takeChosen_of_handled htakes dt
        (handleSetBond_of_free (s := s.turn dt .setBond n) hadmin hopen hargs h)), rfl, ?_, posts_reply rfl n q rfl⟩
      exact has_setBonded (s.turn dt .setBond n) a.1 a.2

/-! ## SET HOST PROFILE -/

/-- The only admin is not taken out (R129). -/
theorem handleSetHostProfile_of_last {s : State} {n : HostId} {q : Request} {a : HostArgs} (hadmin : has s.profile.admin n = true)
    (hopen : s.profile.state = .opened) (hargs : hostArgs q.payload = some a)
    (h : a.admin = false ∧ s.profile.admin = bitOf a.host) : handleSetHostProfile s n q = (s, bare .badArgument) :=
  (profileEdit_of_passes hadmin hopen hargs _).trans (if_pos h)

/-- A quota below the host's records is refused with their number (R130). -/
theorem handleSetHostProfile_of_below {s : State} {n : HostId} {q : Request} {a : HostArgs} (hadmin : has s.profile.admin n = true)
    (hopen : s.profile.state = .opened) (hargs : hostArgs q.payload = some a)
    (hlast : ¬ (a.admin = false ∧ s.profile.admin = bitOf a.host)) (h : a.quota < s.countOf a.host) :
    handleSetHostProfile s n q = (s, { status := .belowUse, payload := [natByte (s.countOf a.host)] }) := by
  have hmade := profileEdit_of_passes hadmin hopen hargs fun a =>
    if a.admin = false ∧ s.profile.admin = bitOf a.host then (s, bare .badArgument)
    else if a.quota < recordCount s.slots a.host then
      (s, { status := .belowUse, payload := [natByte (recordCount s.slots a.host)] })
    else (s.setHost a, bare .ok)
  rw [State.recordCount_eq, if_neg hlast, if_pos h] at hmade
  exact hmade

/-- Otherwise the host's three items are replaced (R130). -/
theorem handleSetHostProfile_of_fits {s : State} {n : HostId} {q : Request} {a : HostArgs} (hadmin : has s.profile.admin n = true)
    (hopen : s.profile.state = .opened) (hargs : hostArgs q.payload = some a)
    (hlast : ¬ (a.admin = false ∧ s.profile.admin = bitOf a.host)) (h : ¬ a.quota < s.countOf a.host) :
    handleSetHostProfile s n q = (s.setHost a, bare .ok) := by
  have hmade := profileEdit_of_passes hadmin hopen hargs fun a =>
    if a.admin = false ∧ s.profile.admin = bitOf a.host then (s, bare .badArgument)
    else if a.quota < recordCount s.slots a.host then
      (s, { status := .belowUse, payload := [natByte (recordCount s.slots a.host)] })
    else (s.setHost a, bare .ok)
  rw [State.recordCount_eq, if_neg hlast, if_neg h] at hmade
  exact hmade

/-- The admin mask with one host's standing replaced. -/
theorem has_setHost_admin (s : State) (a : HostArgs) (x : HostId) :
    has (s.setHost a).profile.admin x = if x = a.host then a.admin else has s.profile.admin x := by
  cases hv : a.admin <;> by_cases h : x = a.host <;> simp [State.setHost, h, hv]

/-- Settles O45: the items are read off the payload, and `setHost` writes them alone. -/
theorem setHostProfileReplacesThreeItems : Obligations.SetHostProfileReplacesThreeItems := by
  unfold Obligations.SetHostProfileReplacesThreeItems
  intro s dt n q h htakes ⟨hadmin, hopen, hgood⟩ hh
  cases hargs : hostArgs q.payload with
  | none => exact absurd (.inr (.inr (.inl ⟨rfl, (hostArgs_eq_none _).mp hargs⟩))) hgood
  | some a =>
    obtain ⟨hhost, hpriority, hquota, hvalue, hout⟩ := hostArgs_eq_some hargs
    obtain rfl : a.host = h := Fin.ext (hhost.symm.trans hh)
    have honly : s.profile.admin = bitOf a.host ↔ ∀ x, has s.profile.admin x = decide (x = a.host) :=
      ⟨fun heq x => by rw [heq, has_bitOf], fun hx => ext_has fun x => by rw [hx, has_bitOf]⟩
    simp only [← hout, ← honly, hquota, hpriority, ← hvalue]
    split
    next hlast =>
      exact ⟨_, rfl, State.takeChosen_onlyAnswers htakes dt
        (handleSetHostProfile_of_last (s := s.turn dt .setHostProfile n) hadmin hopen hargs hlast)⟩
    next hlast =>
      split
      next hbelow =>
        exact ⟨_, rfl, State.takeChosen_onlyAnswers htakes dt
          (handleSetHostProfile_of_below (s := s.turn dt .setHostProfile n) hadmin hopen hargs hlast hbelow)⟩
      next hbelow =>
        exact ⟨_, congrArg Host.Outcome.next (State.takeChosen_of_handled htakes dt
          (handleSetHostProfile_of_fits (s := s.turn dt .setHostProfile n) hadmin hopen hargs hlast hbelow)), rfl,
          congrArg (fun x : HostProfile => x.priority.val) (Table.get_set_self _ _ _), congrArg HostProfile.quota (Table.get_set_self _ _ _),
          fun x hx => Table.get_set_ne _ _ hx, has_setHost_admin (s.turn dt .setHostProfile n) a, posts_reply rfl n q rfl⟩

/-! ## SET TIMING and COMMIT PROFILE -/

/-- Settles O46: the timing values are read off the payload, and each of the two writes its own part of the profile alone. -/
theorem setTimingAndCommitChangeTheProfileAlone : Obligations.SetTimingAndCommitChangeTheProfileAlone := by
  unfold Obligations.SetTimingAndCommitChangeTheProfileAlone
  intro s dt n q
  constructor
  · intro htakes ⟨hadmin, hopen, hgood⟩
    cases hargs : timingArgs q.payload with
    | none => exact absurd (.inr (.inr (.inr (.inl ⟨rfl, (timingArgs_eq_none _).mp hargs⟩)))) hgood
    | some a =>
      obtain ⟨rfl, hsent⟩ := timingArgs_eq_some hargs
      exact ⟨_, congrArg Host.Outcome.next (State.takeChosen_of_handled htakes dt
        (profileEdit_of_passes (s := s.turn dt .setTiming n) hadmin hopen hargs _)), rfl, posts_reply rfl n q hsent⟩
  · intro htakes ⟨hadmin, hopen, hgood⟩
    have hempty : q.payload = [] := by
      by_contra hne
      exact hgood (.inr (.inr (.inr (.inr ⟨rfl, hne⟩))))
    exact ⟨_, congrArg Host.Outcome.next (State.takeChosen_of_handled htakes dt
      (profileEdit_of_passes (s := s.turn dt .commitProfile n) hadmin hopen (if_pos hempty) _)), rfl, posts_reply rfl n q rfl⟩

/-! ## READ PROFILE -/

/-- The bytes of a section of lines, line by line (R131). -/
theorem lineProfileBytes_eq (s : State) {sec : Nat} (h : sec ≤ 1) :
    lineProfileBytes s (24 * sec) = (List.range 24).map fun x => (s.profile.lines.get (Fin.ofNat 48 (24 * sec + x))).byte := by
  interval_cases sec <;> rfl

/-- The byte of a line's profile (R125, R131). -/
theorem lineProfile_byte_eq (p : LineProfile) :
    p.byte = p.mask.setWidth 8 ||| (match p.rest with
      | .float => 0x00#8 | .pullUp => 0x10#8 | .pullDown => 0x20#8 | .driveLow => 0x30#8 | .driveHigh => 0x40#8) := by
  unfold LineProfile.byte
  cases p.rest <;> rfl

/-- The required and the voted set in one byte (R161). -/
theorem voteSetsByte_eq (s : State) : voteSetsByte s = s.vote.required.setWidth 8 ||| (s.vote.voted.setWidth 8 <<< 4) := by
  refine BitVec.eq_of_getLsbD_eq fun i hi => ?_
  rw [voteSetsByte, BitVec.getLsbD_append]
  interval_cases i <;> simp

/-- The flags of the profile and the vote (R161). -/
theorem profileFlags_eq (s : State) :
    profileFlags s = (if s.profile.state = .committed then 1#8 else 0#8) ||| (if s.vote.running then 2#8 else 0#8) := by
  unfold profileFlags flagBit
  simp only [beq_iff_eq]
  rfl

/-- Section 2 of READ PROFILE (R131). -/
theorem profileSummary_eq (s : State) :
    profileSummary s = [(if s.profile.state = .committed then 1#8 else 0#8) ||| (if s.vote.running then 2#8 else 0#8),
              s.vote.required.setWidth 8 ||| (s.vote.voted.setWidth 8 <<< 4),
              BitVec.ofNat 8 (match s.vote.deadline with | some d => min ((d - s.now) / 100000) (s.profile.voteWindow - 1) | none => 0),
              s.profile.admin.setWidth 8]
              ++ twoBytes s.profile.bonded.toNat
              ++ ([0, 1, 2, 3].flatMap fun h : HostId =>
                  [BitVec.ofNat 8 (s.profile.hosts.get h).priority.val, BitVec.ofNat 8 (s.profile.hosts.get h).quota])
              ++ [BitVec.ofNat 8 s.profile.settle] ++ twoBytes s.profile.yieldWindow
              ++ [BitVec.ofNat 8 s.profile.voteWindow] := by
  have hbonded : u16Bytes (s.profile.bonded.setWidth 16) = twoBytes s.profile.bonded.toNat := by
    rw [← natBytes2_eq, natBytes2, BitVec.ofNat_toNat]
  rw [profileSummary, profileFlags_eq, voteSetsByte_eq, hbonded, natBytes2_eq]
  rfl

/-- A section of lines is answered with the bytes of its lines (R131). -/
theorem handleReadProfile_of_lines {s : State} {q : Request} {sec : Nat} (n : HostId) (hsec : sec ≤ 1)
    (h : sectionArg q.payload = some sec) :
    handleReadProfile s n q = (s, { status := .ok, payload := lineProfileBytes s (24 * sec) }) := by
  interval_cases sec <;> simp only [handleReadProfile, h]

/-- Settles O42: the payload names the section, and its handling writes nothing. -/
theorem readProfileReports : Obligations.ReadProfileReports := by
  unfold Obligations.ReadProfileReports
  intro s dt n q htakes
  have hlines {sec : Nat} (hsec : sec ≤ 1) (h : sectionArg q.payload = some sec) :=
    State.takeChosen_onlyAnswers htakes dt (handleReadProfile_of_lines (s := s.turn dt .readProfile n) n hsec h)
  refine ⟨_, rfl, ?_⟩
  have harg := sectionArg_eq q.payload
  have hsent (sec : Nat) (hsec : sec ≤ 1) := (lineProfileBytes_eq (s.turn dt .readProfile n) hsec).trans
    (List.map_congr_left fun x _ => lineProfile_byte_eq (s.profile.lines.get (Fin.ofNat 48 (24 * sec + x))))
  split
  next h =>
    rcases h with h | h
    · have hzero := hlines (Nat.zero_le 1) (harg.trans (by rw [if_pos h]))
      rw [hsent 0 (Nat.zero_le 1)] at hzero
      rw [h]
      exact hzero
    · have hone := hlines (Nat.le_refl 1) (harg.trans (by rw [h]; rfl))
      rw [hsent 1 (Nat.le_refl 1)] at hone
      rw [h]
      exact hone
  next h =>
    obtain ⟨hzero, hone⟩ := not_or.mp h
    rw [if_neg hzero, if_neg hone] at harg
    split
    next htwo =>
      rw [if_pos htwo] at harg
      have hsummary := State.takeChosen_onlyAnswers htakes dt (f := handleReadProfile)
        (a := { status := .ok, payload := profileSummary (s.turn dt .readProfile n) }) (by simp only [handleReadProfile, harg])
      rw [profileSummary_eq] at hsummary
      exact hsummary
    next htwo =>
      rw [if_neg htwo] at harg
      exact State.takeChosen_onlyAnswers htakes dt (a := bare .badArgument) (by simp only [handleReadProfile, harg])

end Sys2Proof.Machine
end

section
/-! SUPPORT. The payload of SET LINE PROFILE, read by position (R125), and the refusals of the administrative requests (R124, R137). -/

namespace Sys2Proof.Machine

/-! ## The entries of an edit -/

/-- The rest state a code stands for: codes 0 to 4 have one (R121, R161). -/
theorem rest_ofCode (c : Nat) : (Rest.ofCode c = none ∧ 5 ≤ c) ∨ ∃ r, Rest.ofCode c = some r ∧ r.code.toNat = c := by
  match c with
  | 0 | 1 | 2 | 3 | 4 => exact .inr ⟨_, rfl, rfl⟩
  | c + 5 => exact .inl ⟨rfl, Nat.le_add_left 5 c⟩

/-- The code of a rest state in a line's byte (R125). -/
theorem toNat_restCode (b : Byte) : (b.extractLsb' 4 3).toNat = b.toNat / 16 % 8 := by simp [Nat.shiftRight_eq_div_pow]

/-- A byte gives a line's profile unless its rest-state code is 5 to 7 (R125). -/
theorem lineProfile_ofByte_eq_none (b : Byte) : LineProfile.ofByte b = none ↔ 5 ≤ b.toNat / 16 % 8 := by
  rw [LineProfile.ofByte, Option.map_eq_none_iff, toNat_restCode]
  rcases rest_ofCode (b.toNat / 16 % 8) with ⟨hnone, hcode⟩ | ⟨r, hsome, hcode⟩
  · exact iff_of_true hnone hcode
  · have hlt : r.code.toNat < 5 := by cases r <;> decide
    exact iff_of_false (by simp [hsome]) (by omega)

/-- The mask and the rest state a byte gives (R125). -/
theorem lineProfile_ofByte_eq_some {b : Byte} {p : LineProfile} (h : LineProfile.ofByte b = some p) :
    p.mask = b.setWidth 4 ∧ p.rest.code.toNat = b.toNat / 16 % 8 := by
  obtain ⟨rest, hrest, rfl⟩ := Option.map_eq_some_iff.mp h
  rw [toNat_restCode] at hrest
  refine ⟨BitVec.eq_of_getLsbD_eq fun i hi => by simp, ?_⟩
  rcases rest_ofCode (b.toNat / 16 % 8) with ⟨hnone, -⟩ | ⟨r, hsome, hcode⟩
  · cases hnone.symm.trans hrest
  · obtain rfl := Option.some.inj (hsome.symm.trans hrest)
    exact hcode

/-- Bytes `2j` and `2j + 1` of `es` give the entry `e` of an edit (R125). -/
def givesProfile (es : List Byte) (j : Nat) (e : LineId × LineProfile) : Prop :=
  (es.getD (2 * j) 0#8).toNat = e.1.val ∧ LineProfile.ofByte (es.getD (2 * j + 1) 0#8) = some e.2

/-- Bytes `2j` and `2j + 1` of `es` name a line of 48 or above, or a rest-state code of 5 to 7 (R125). -/
def misgivesProfile (es : List Byte) (j : Nat) : Prop :=
  48 ≤ (es.getD (2 * j) 0#8).toNat ∨ 5 ≤ (es.getD (2 * j + 1) 0#8).toNat / 16 % 8

/-- How a pair of bytes and those after it are read (R125). -/
theorem profileEntries_cons_cons (l b : Byte) (rest : List Byte) :
    profileEntries (l :: b :: rest) =
      if h : l.toNat < 48 then
        (LineProfile.ofByte b).bind fun p => (profileEntries rest).map fun es => (⟨l.toNat, h⟩, p) :: es
      else none := by
  change dite _ _ _ = _
  refine dite_congr rfl (fun h => ?_) fun _ => rfl
  cases LineProfile.ofByte b with
  | none => rfl
  | some p => cases profileEntries rest <;> rfl

/-- A pair of bytes and those after it are read as the entry the pair gives, and the entries of the others. -/
theorem profileEntries_cons_cons_eq_some (l b : Byte) (rest : List Byte) (es : List (LineId × LineProfile)) :
    profileEntries (l :: b :: rest) = some es ↔
      ∃ e tail, (l.toNat = e.1.val ∧ LineProfile.ofByte b = some e.2) ∧ profileEntries rest = some tail ∧ es = e :: tail := by
  rw [profileEntries_cons_cons]
  constructor
  · intro h
    split at h
    · obtain ⟨p, hp, hrest⟩ := Option.bind_eq_some_iff.mp h
      obtain ⟨tail, htail, rfl⟩ := Option.map_eq_some_iff.mp hrest
      exact ⟨_, tail, ⟨rfl, hp⟩, htail, rfl⟩
    · cases h
  · rintro ⟨e, tail, ⟨hl, hb⟩, htail, rfl⟩
    have hlt : l.toNat < 48 := hl ▸ e.1.isLt
    simp [hb, htail, hl]

/-- A pair of bytes and those after it are not read exactly when the pair gives no entry or the others are not read. -/
theorem profileEntries_cons_cons_eq_none (l b : Byte) (rest : List Byte) :
    profileEntries (l :: b :: rest) = none ↔ (48 ≤ l.toNat ∨ 5 ≤ b.toNat / 16 % 8) ∨ profileEntries rest = none := by
  rw [profileEntries_cons_cons, ← lineProfile_ofByte_eq_none]
  by_cases hlt : l.toNat < 48
  · cases LineProfile.ofByte b <;> cases profileEntries rest <;> simp [hlt]
  · simp [hlt, Nat.le_of_not_lt hlt]

/-- The entries read from `es` are those its pairs of bytes give, in order. -/
theorem profileEntries_gives {es : List Byte} {entries : List (LineId × LineProfile)} (h : profileEntries es = some entries) :
    es.length = 2 * entries.length ∧ ∀ j (hj : j < entries.length), givesProfile es j entries[j] := by
  match es with
  | [] =>
    obtain rfl : [] = entries := Option.some.inj h
    simp
  | [_] => cases h
  | l :: b :: rest =>
    obtain ⟨e, tail, hpair, htail, rfl⟩ := (profileEntries_cons_cons_eq_some l b rest entries).mp h
    obtain ⟨hlen, hgives⟩ := profileEntries_gives htail
    refine ⟨by simp only [List.length_cons, hlen]; omega, fun j hj => ?_⟩
    cases j with
    | zero => exact hpair
    | succ j => exact hgives j (by simpa using hj)

/-- As many pairs of bytes as there are entries to read are not read exactly when one gives none (R125). -/
theorem profileEntries_eq_none {es : List Byte} {k : Nat} (hlen : es.length = 2 * k) :
    profileEntries es = none ↔ ∃ j, j < k ∧ misgivesProfile es j := by
  induction k generalizing es with
  | zero =>
    obtain rfl : es = [] := by simpa using hlen
    exact iff_of_false (fun h => (by cases h)) (by simp)
  | succ k ih =>
    match es, hlen with
    | l :: b :: rest, hlen =>
      rw [profileEntries_cons_cons_eq_none, ih (by simp only [List.length_cons] at hlen; omega), Nat.exists_lt_succ_left]
      rfl

/-- The entries read name each line once exactly when no two of their pairs of bytes name the same line. -/
theorem nodup_profileEntries_iff {es : List Byte} {entries : List (LineId × LineProfile)} (h : profileEntries es = some entries) :
    (entries.map fun e => e.1).Nodup ↔
      ¬ ∃ j, j < entries.length ∧ ∃ i, i < j ∧ es.getD (2 * i) 0#8 = es.getD (2 * j) 0#8 := by
  obtain ⟨_, hgives⟩ := profileEntries_gives h
  have hsame : ∀ i j (hi : i < entries.length) (hj : j < entries.length),
      es.getD (2 * i) 0#8 = es.getD (2 * j) 0#8 ↔ entries[i].1 = entries[j].1 := fun i j hi hj => by
    rw [← BitVec.toNat_inj, (hgives i hi).1, (hgives j hj).1, Fin.ext_iff]
  rw [List.Nodup, List.pairwise_map, List.pairwise_iff_getElem]
  constructor
  · rintro hne ⟨j, hj, i, hij, heq⟩
    exact hne i j (by omega) hj hij ((hsame i j _ hj).mp heq)
  · intro hne i j hi hj hij heq
    exact hne ⟨j, hj, i, hij, (hsame i j hi hj).mpr heq⟩

/-! ## The payload -/

/-- A byte after the count is a byte of the entries. -/
theorem getD_entries (k : Byte) (rest : List Byte) (j : Nat) :
    (k :: rest).getD (1 + 2 * j) 0#8 = rest.getD (2 * j) 0#8 ∧ (k :: rest).getD (2 + 2 * j) 0#8 = rest.getD (2 * j + 1) 0#8 := by
  rw [Nat.add_comm 1, show 2 + 2 * j = 2 * j + 1 + 1 by omega, List.getD_cons_succ, List.getD_cons_succ]
  exact ⟨rfl, rfl⟩

/-- What the count and the entry bytes of an edit are read as, where the count agrees with the length (R125). -/
theorem lineProfileArgs_of_count {k : Byte} {rest : List Byte} (hzero : k.toNat ≠ 0) (height : k.toNat ≤ 8)
    (hlen : rest.length = 2 * k.toNat) :
    lineProfileArgs (k :: rest) =
      match profileEntries rest with
      | none => none
      | some es => if (es.map fun e => e.1).Nodup then some es else none :=
  if_neg (by omega)

/-- No edit is read where the count does not agree with the length (R125). -/
theorem lineProfileArgs_of_miscount {k : Byte} {rest : List Byte}
    (h : k.toNat = 0 ∨ 8 < k.toNat ∨ rest.length ≠ 2 * k.toNat) : lineProfileArgs (k :: rest) = none := if_pos h

/-- A payload SET LINE PROFILE takes: its entries, one for each pair of bytes, no line twice (R125). -/
theorem lineProfileArgs_eq_some {p : List Byte} {es : List (LineId × LineProfile)} (h : lineProfileArgs p = some es) :
    ∃ k rest, p = k :: rest ∧ profileEntries rest = some es ∧ es.length = k.toNat ∧ (es.map fun e => e.1).Nodup := by
  match p with
  | [] => cases h
  | k :: rest =>
    by_cases hcount : k.toNat = 0 ∨ 8 < k.toNat ∨ rest.length ≠ 2 * k.toNat
    · simp [lineProfileArgs_of_miscount hcount] at h
    · obtain ⟨hzero, height, hlen⟩ := by simpa only [not_or, not_lt, ne_eq, not_not] using hcount
      rw [lineProfileArgs_of_count hzero height hlen] at h
      cases hread : profileEntries rest with
      | none => simp [hread] at h
      | some entries =>
        obtain ⟨hnodup, rfl⟩ : (entries.map fun e => e.1).Nodup ∧ entries = es := by simpa [hread] using h
        obtain ⟨hlength, _⟩ := profileEntries_gives hread
        exact ⟨k, rest, rfl, hread, by omega, hnodup⟩

/-- The payload SET LINE PROFILE is refused (R125). -/
theorem lineProfileArgs_eq_none (p : List Byte) :
    lineProfileArgs p = none ↔ p.length ≠ 1 + 2 * (p.getD 0 0#8).toNat ∨ p.getD 0 0#8 = 0#8 ∨ 8 < (p.getD 0 0#8).toNat
      ∨ ∃ j, j < (p.getD 0 0#8).toNat ∧ (48 ≤ (p.getD (1 + 2 * j) 0#8).toNat ∨ 5 ≤ (p.getD (2 + 2 * j) 0#8).toNat / 16 % 8
          ∨ ∃ i, i < j ∧ p.getD (1 + 2 * i) 0#8 = p.getD (1 + 2 * j) 0#8) := by
  match p with
  | [] => exact iff_of_true rfl (.inl (by decide))
  | k :: rest =>
    have hzero : k = 0#8 ↔ k.toNat = 0 := (BitVec.toNat_inj (x := k) (y := 0#8)).symm
    have hlen : (k :: rest).length ≠ 1 + 2 * k.toNat ↔ rest.length ≠ 2 * k.toNat := by
      rw [List.length_cons]
      omega
    simp only [getD_entries, List.getD_cons_zero, hzero, hlen]
    by_cases hcount : k.toNat = 0 ∨ 8 < k.toNat ∨ rest.length ≠ 2 * k.toNat
    · simp only [lineProfileArgs_of_miscount hcount, true_iff]
      tauto
    · obtain ⟨hnonzero, height, hlength⟩ := by simpa only [not_or, not_lt, ne_eq, not_not] using hcount
      have hsplit : (∃ j, j < k.toNat ∧ (48 ≤ (rest.getD (2 * j) 0#8).toNat ∨ 5 ≤ (rest.getD (2 * j + 1) 0#8).toNat / 16 % 8
            ∨ ∃ i, i < j ∧ rest.getD (2 * i) 0#8 = rest.getD (2 * j) 0#8)) ↔ profileEntries rest = none
          ∨ ∃ j, j < k.toNat ∧ ∃ i, i < j ∧ rest.getD (2 * i) 0#8 = rest.getD (2 * j) 0#8 := by
        simp only [profileEntries_eq_none hlength, misgivesProfile, ← or_assoc, and_or_left, exists_or]
      rw [lineProfileArgs_of_count hnonzero height hlength, hsplit]
      simp only [ne_eq, hlength, not_true, hnonzero, Nat.not_lt.mpr height, false_or]
      cases hread : profileEntries rest with
      | none => simp
      | some entries =>
        have hdistinct := nodup_profileEntries_iff hread
        rw [show entries.length = k.toNat by have := (profileEntries_gives hread).1; omega] at hdistinct
        simp only [ite_eq_right_iff, reduceCtorEq, imp_false, hdistinct, not_not, false_or]

/-! ## Refusals -/

/-- The administrative edits, and what handles them (R124). -/
def edits : List (Kind × (State → HostId → Request → State × Answer)) :=
  [(.setLineProfile, handleSetLineProfile), (.setBond, handleSetBond), (.setHostProfile, handleSetHostProfile),
    (.setTiming, handleSetTiming), (.commitProfile, handleCommitProfile)]

/-- An administrative edit is refused as R124 says. -/
theorem handleEdit_of_refused {s : State} {n : HostId} {q : Request} {k : Kind} {f : State → HostId → Request → State × Answer}
    {st : Status} (hk : (k, f) ∈ edits) (h : s.editRefused k n q.payload st) : f s n q = (s, bare st) := by
  simp only [edits, List.mem_cons, Prod.mk.injEq, List.not_mem_nil, or_false] at hk
  rcases hk with ⟨rfl, rfl⟩ | ⟨rfl, rfl⟩ | ⟨rfl, rfl⟩ | ⟨rfl, rfl⟩ | ⟨rfl, rfl⟩ <;>
    refine profileEdit_of_refused (fun hbad => ?_) h _ <;>
    simp only [editMalformed, reduceCtorEq, false_and, true_and, false_or, or_false] at hbad
  · exact (lineProfileArgs_eq_none _).mpr hbad
  · exact (bondArgs_eq_none _).mpr hbad
  · exact (hostArgs_eq_none _).mpr hbad
  · exact (timingArgs_eq_none _).mpr hbad
  · exact if_neg hbad

/-- A CLEAR ALL is refused as R137 says; one that earns both answers gets the free value's (log 11). -/
theorem handleClearAll_of_refused {s : State} {n : HostId} {q : Request} {st : Status}
    (h : (has s.profile.admin n = false ∧ q.payload = [] ∧ st = .notAdmin)
      ∨ (has s.profile.admin n = true ∧ q.payload ≠ [] ∧ st = .badArgument)
      ∨ (has s.profile.admin n = false ∧ q.payload ≠ []
        ∧ st = if Config.clearAllArgumentFirst then .badArgument else .notAdmin)) :
    handleClearAll s n q = (s, bare st) := by
  unfold handleClearAll State.isAdmin
  rcases h with ⟨hadmin, hempty, rfl⟩ | ⟨hadmin, hargument, rfl⟩ | ⟨hadmin, hargument, rfl⟩
  · simp [hadmin, hempty]
  · simp [hadmin, hargument]
  · cases Config.clearAllArgumentFirst <;> simp [hadmin, hargument]

/-- Settles O47: the first check that fails gives the status, and the reply alone follows. -/
theorem administrationRefused : Obligations.AdministrationRefused := by
  unfold Obligations.AdministrationRefused
  intro s dt n q k c st hc htakes hrefused
  have hturn : (s.turn dt k n).profile = s.profile := by simp [State.turn]
  have hedit {f : State → HostId → Request → State × Answer} (hk : (k, f) ∈ edits) (hne : k ≠ .clearAll) :
      onlyAnswers s ((s.elapse dt).takeChosen k f) dt k n q st [] := by
    rw [if_neg hne] at hrefused
    refine State.takeChosen_onlyAnswers htakes dt (handleEdit_of_refused (s := s.turn dt k n) hk ?_)
    rw [State.editRefused, hturn]
    exact hrefused
  simp only [List.mem_cons, Prod.mk.injEq, List.not_mem_nil, or_false] at hc
  rcases hc with ⟨rfl, rfl⟩ | ⟨rfl, rfl⟩ | ⟨rfl, rfl⟩ | ⟨rfl, rfl⟩ | ⟨rfl, rfl⟩ | ⟨rfl, rfl⟩
  · exact ⟨_, rfl, hedit (f := handleSetLineProfile) (by simp [edits]) (by decide)⟩
  · exact ⟨_, rfl, hedit (f := handleSetBond) (by simp [edits]) (by decide)⟩
  · exact ⟨_, rfl, hedit (f := handleSetHostProfile) (by simp [edits]) (by decide)⟩
  · exact ⟨_, rfl, hedit (f := handleSetTiming) (by simp [edits]) (by decide)⟩
  · exact ⟨_, rfl, hedit (f := handleCommitProfile) (by simp [edits]) (by decide)⟩
  · rw [if_pos rfl] at hrefused
    exact ⟨_, rfl, State.takeChosen_onlyAnswers htakes dt (handleClearAll_of_refused (s := s.turn dt .clearAll n) hrefused)⟩

end Sys2Proof.Machine
end

section
/-! SUPPORT. The reopen vote, counted and failed (R133 to R136), and CLEAR ALL (R137). -/

namespace Sys2Proof.Machine

/-! ## VOTE_DEADLINE -/

/-- Settles O50: the vote ends, and each host of the voted set is told. -/
theorem voteDeadlineFailsTheVote : Obligations.VoteDeadlineFailsTheVote := by
  unfold Obligations.VoteDeadlineFailsTheVote
  intro s d hr hrun hdeadline
  have hexec : exec .voteDeadline s = .next
      ((s.reach d).endVote.forHosts s.vote.voted fun t h => t.flag h fun f => { f with voteFailed := true }) := by
    change Host.Outcome.next _ = _
    rw [hr, hrun, hdeadline]
  refine ⟨_, hexec, ?_, fun h => ⟨?_, ?_⟩⟩
  · rw [State.forHosts_flag_frame]
    rfl
  · rw [State.forHosts_flag_frame]
    exact Table.get_ofFn _ _
  · rw [State.forHosts_flag_board, Board.flagged_eq _ (by simp [SessionFlags.clear])]
    rfl

/-! ## REOPEN_VOTE -/

/-- The state after a REOPEN VOTE of host `n`, before the completion test (R134). -/
structure Balloted (s w : State) (n : HostId) : Prop where
  frame : w = { s with sessions := w.sessions, boards := w.boards, vote := w.vote }
  vote : w.vote = { running := true, required := s.attachedSet, voted := s.vote.voted ||| bitOf n
                    deadline := if s.vote.running then s.vote.deadline else some (s.now + s.profile.voteWindow * 100000) }
  sessions : ∀ h, w.sessions.get h = { s.sessions.get h with voted := has (s.vote.voted ||| bitOf n) h }
  boards : ∀ h,
    if s.vote.running = false ∧ h ≠ n ∧ (s.sessions.get h).state = .attached then
      w.boards.get h = { s.boards.get h with flags := { (s.boards.get h).flags with voteOpen := true }, attn := true }
    else w.boards.get h = s.boards.get h

/-- The hosts required by a running vote are the attached ones (R133). -/
theorem State.required_eq {s : State} (h : s.voteRight) (hrun : s.vote.running = true) : s.vote.required = s.attachedSet := by
  obtain ⟨_, hsets⟩ := h
  rw [if_pos hrun] at hsets
  refine ext_has fun m => ?_
  rw [Bool.eq_iff_iff, (hsets.2.2 m).1]
  simp [State.attachedSet]

/-- Where no vote runs, none has been cast (R133). -/
theorem State.voted_of_idle {s : State} (h : s.voteRight) (hrun : s.vote.running = false) : s.vote.voted = 0#4 := by
  obtain ⟨_, hsets⟩ := h
  rw [if_neg (by simp [hrun])] at hsets
  exact hsets.2.2

/-- The state with a vote put in place and host `n`'s vote flag set (R133, R134). -/
def State.polled (s : State) (n : HostId) (v : Vote) : State := ({ s with vote := v } : State).setVoted n true

/-- The sessions then show the vote with host `n`'s (R133, R134). -/
theorem State.polled_session {s : State} (h : s.voteRight) (n m : HostId) (v : Vote) :
    (s.polled n v).sessions.get m = { s.sessions.get m with voted := has (s.vote.voted ||| bitOf n) m } := by
  by_cases hm : m = n
  · subst hm
    exact (Table.get_set_self _ _ _).trans (by simp)
  · refine (Table.get_set_ne _ _ hm).trans ?_
    simp [hm, ← h.1 m]

/-- A vote cast again changes nothing, the vote being undecided (R134, R135). -/
theorem State.reopenVote_of_cast {s : State} (hright : s.voteRight) (hopen : s.voteUndecided) {n : HostId}
    (hrun : s.vote.running = true) (hcast : has s.vote.voted n = true) :
    Balloted s s n ∧ s.reopenVote n = s.completionTest := by
  have hrequired := State.required_eq hright hrun
  have hsame : s.vote.voted ||| bitOf n = s.vote.voted := by
    refine ext_has fun m => ?_
    by_cases hm : m = n <;> simp [hm, hcast]
  refine ⟨⟨rfl, ?_, fun h => by rw [hsame, ← hright.1 h], fun h => by rw [if_neg (by simp [hrun])]⟩, ?_⟩
  · rw [hsame, ← hrequired, if_pos hrun, ← hrun]
  · have hmember : has s.vote.required n = true := by
      obtain ⟨_, hsets⟩ := hright
      rw [if_pos hrun] at hsets
      exact (hsets.2.2 n).2 hcast
    rw [State.reopenVote, if_pos hrun, if_pos hcast]
    rcases s.completionTest_cases with ⟨_, hnone, _⟩ | ⟨_, _, hwhole, _⟩ | ⟨_, heq⟩
    · rw [hnone, has_zero'] at hmember
      cases hmember
    · exact absurd hwhole (hopen hrun)
    · exact heq.symm

/-- A vote not cast yet is counted (R134). -/
theorem State.reopenVote_of_uncast {s : State} (hright : s.voteRight) {n : HostId} (hrun : s.vote.running = true)
    (hcast : has s.vote.voted n = false) :
    Balloted s (s.polled n { s.vote with voted := s.vote.voted ||| bitOf n }) n
      ∧ s.reopenVote n = (s.polled n { s.vote with voted := s.vote.voted ||| bitOf n }).completionTest := by
  refine ⟨⟨rfl, ?_, fun h => State.polled_session hright n h _, fun h => by rw [if_neg (by simp [hrun])]; rfl⟩, ?_⟩
  · rw [if_pos hrun, ← State.required_eq hright hrun, ← hrun]
    rfl
  · rw [State.reopenVote, if_pos hrun, if_neg (by simp [hcast])]
    rfl

/-- Where no vote runs, one starts with the issuer's vote, and the other attached hosts are told (R134). -/
theorem State.reopenVote_of_idle {s : State} (hright : s.voteRight) {n : HostId} (hrun : s.vote.running = false) :
    ∃ w, Balloted s w n ∧ s.reopenVote n = w.completionTest := by
  have hstart : s.reopenVote n = ((s.polled n
      { running := true, deadline := some (s.now + s.profile.voteWindow * Config.voteUnit), required := s.attachedSet
        voted := bitOf n }).forHosts (s.attachedSet &&& ~~~ bitOf n) fun t h =>
          t.flag h fun f => { f with voteOpen := true }).completionTest := by
    rw [State.reopenVote, if_neg (by simp [hrun])]
    rfl
  have hvoted : s.vote.voted ||| bitOf n = bitOf n := by
    rw [State.voted_of_idle hright hrun]
    exact BitVec.zero_or
  refine ⟨_, ⟨?_, ?_, fun h => ?_, fun h => ?_⟩, hstart⟩
  · rw [State.forHosts_flag_frame]
    rfl
  · rw [State.forHosts_flag_frame, hvoted, hrun]
    rfl
  · rw [State.forHosts_flag_frame]
    exact State.polled_session hright n h _
  · rw [State.forHosts_flag_board]
    have htold : has (s.attachedSet &&& ~~~ bitOf n) h = true ↔ h ≠ n ∧ (s.sessions.get h).state = .attached := by
      simp [State.attachedSet, and_comm]
    by_cases hh : h ≠ n ∧ (s.sessions.get h).state = .attached
    · rw [if_pos ⟨hrun, hh⟩, if_pos (htold.mpr hh), Board.flagged_eq _ (by simp [SessionFlags.clear])]
      rfl
    · rw [if_neg fun hx => hh hx.2, if_neg (mt htold.mp hh)]
      rfl

/-- A REOPEN VOTE counts the issuer's vote, or starts a vote with it, and tests for completion (R134, R135). -/
theorem State.reopenVote_balloted {s : State} (hright : s.voteRight) (hopen : s.voteUndecided) (n : HostId) :
    ∃ w, Balloted s w n ∧ s.reopenVote n = w.completionTest := by
  cases hrun : s.vote.running with
  | true =>
    cases hcast : has s.vote.voted n with
    | true => exact ⟨_, State.reopenVote_of_cast hright hopen hrun hcast⟩
    | false => exact ⟨_, State.reopenVote_of_uncast hright hrun hcast⟩
  | false => exact State.reopenVote_of_idle hright hrun

/-- A ballot that leaves a required host without a vote goes on (R135). -/
theorem State.completionTest_of_short {s : State} (hnone : s.vote.required ≠ 0#4) (hshort : s.vote.voted ≠ s.vote.required) :
    s.completionTest = s := by
  rcases s.completionTest_cases with ⟨_, hzero, _⟩ | ⟨_, _, hwhole, _⟩ | ⟨_, heq⟩
  · exact absurd hzero hnone
  · exact absurd hwhole hshort
  · exact heq

/-- A ballot of every required host opens the profile, ends the vote, and tells the attached hosts (R135). -/
theorem Balloted.whole {s w : State} {n : HostId} (h : Balloted s w n) (hmember : s.attachedSet ≠ 0#4)
    (hwhole : s.vote.voted ||| bitOf n = s.attachedSet) :
    w.completionTest =
        { s with
          sessions := w.completionTest.sessions, boards := w.completionTest.boards, vote := w.completionTest.vote
          profile := { s.profile with state := w.completionTest.profile.state } }
      ∧ w.completionTest.profile.state = .opened
      ∧ w.completionTest.vote = { running := false, deadline := none, required := 0#4, voted := 0#4 }
      ∧ (∀ m, w.completionTest.sessions.get m = { s.sessions.get m with voted := false })
      ∧ ∀ m, ((s.sessions.get m).state = .attached → (w.completionTest.boards.get m).flags.profileOpened = true)
        ∧ ((s.sessions.get m).state ≠ .attached → w.completionTest.boards.get m = s.boards.get m) := by
  obtain ⟨hframe, hvote, hsessions, hboards⟩ := h
  obtain ⟨heq, htold⟩ := State.completionTest_of_whole (s := w) (by rw [hvote]) (by rw [hvote]; exact hmember) (by rw [hvote]; exact hwhole)
  have hstate (m : HostId) : (w.sessions.get m).state = (s.sessions.get m).state := by rw [hsessions]
  have hprofile : w.profile = s.profile := by rw [hframe]
  refine ⟨?_, by rw [heq], by rw [heq]; rfl, fun m => ?_, fun m => ⟨fun hm => ?_, fun hm => ?_⟩⟩
  · rw [heq, hprofile, hframe]
    rfl
  · rw [heq]
    refine (Table.get_ofFn _ _).trans ?_
    rw [hsessions]
  · rw [htold, if_pos (by rw [hstate, hm])]
  · rw [htold, if_neg (by rw [hstate]; exact hm)]
    have hstands := hboards m
    rwa [if_neg fun hx => hm hx.2.2] at hstands

/-- A REOPEN VOTE taken while COMMITTED is answered from the vote it leaves (R134). -/
theorem handleReopenVote_of_committed {s : State} {n : HostId} {q : Request} (hempty : q.payload = [])
    (hstate : s.profile.state = .committed) : handleReopenVote s n q = (s.reopenVote n, voteAnswer (s.reopenVote n)) := by
  rw [handleReopenVote, if_pos hempty, if_pos hstate]

/-- Settles O49: the vote is balloted with the issuer's, and the completion test decides what is left. -/
theorem reopenVoteCounts : Obligations.ReopenVoteCounts := by
  unfold Obligations.ReopenVoteCounts
  intro s dt n q htakes hright hopen
  have hsets (h : HostId) : has s.attachedSet h = decide ((s.sessions.get h).state = .attached)
      ∧ has (s.vote.voted ||| bitOf n) h = (decide (h = n) || has s.vote.voted h) := by
    refine ⟨?_, by rw [has_or, has_bitOf, Bool.or_comm]⟩
    rw [State.attachedSet, has_bitsWhere]
    rfl
  have hmember : s.attachedSet ≠ 0#4 := fun hzero => by
    have hn := (hsets n).1
    rw [hzero, has_zero', htakes.2.1] at hn
    cases hn
  by_cases hempty : q.payload = []
  · by_cases hstate : s.profile.state = .opened
    · refine ⟨_, s.attachedSet, _, rfl, hsets, ?_⟩
      rw [if_neg (not_not.mpr hempty), if_pos hstate]
      refine State.takeChosen_onlyAnswers htakes dt (a := bare .wrongState) ?_
      rw [handleReopenVote, if_pos hempty, if_neg (by simp [State.turn, hstate])]
    · have hcommitted : s.profile.state = .committed := by cases h : s.profile.state <;> simp_all
      obtain ⟨w, hw, heq⟩ := State.reopenVote_balloted (s := s.turn dt .reopenVote n) hright hopen n
      have hhandled := handleReopenVote_of_committed (s := s.turn dt .reopenVote n) (n := n) hempty hcommitted
      rw [heq] at hhandled
      refine ⟨_, s.attachedSet, _, congrArg Host.Outcome.next (State.takeChosen_of_handled htakes dt hhandled), hsets, ?_⟩
      rw [if_neg (not_not.mpr hempty), if_neg hstate]
      by_cases hwhole : s.vote.voted ||| bitOf n = s.attachedSet
      · rw [if_pos hwhole]
        obtain ⟨hframe, hopened, hvote, hsessions, hboards⟩ := hw.whole hmember hwhole
        generalize w.completionTest = t at hframe hopened hvote hsessions hboards ⊢
        refine ⟨State.reply_of_eq hframe n q _, fun h => ?_, hopened, hvote, fun h => ⟨?_, hboards h⟩, posts_reply ?_ n q ?_⟩
        · exact (hsessions h).trans (by rw [State.reply_sessions, hsessions h]; rfl)
        · exact congrArg Session.voted (hsessions h)
        · rw [hframe]
          rfl
        · change [profileFlags t, voteSetsByte t] = _
          rw [profileFlags_eq, voteSetsByte_eq, hopened, hvote]
          rfl
      · rw [if_neg hwhole]
        obtain ⟨hframe, hvote, hsessions, hboards⟩ := hw
        have hstands : w.profile.state = .committed := by
          rw [hframe]
          exact hcommitted
        rw [State.completionTest_of_short (s := w) (by rw [hvote]; exact hmember) (by rw [hvote]; exact hwhole)]
        refine ⟨State.reply_of_eq (s := { s.turn dt .reopenVote n with sessions := w.sessions, boards := w.boards, vote := w.vote
                                                                       profile := { s.profile with state := w.profile.state } })
          ?_ n q _, fun h => ?_, hstands, hvote, fun h => ⟨?_, hboards h⟩, posts_reply ?_ n q ?_⟩
        · rw [hframe]
          rfl
        · exact (hsessions h).trans (by rw [State.reply_sessions, hsessions h]; rfl)
        · exact congrArg Session.voted (hsessions h)
        · rw [hframe]
          rfl
        · change [profileFlags w, voteSetsByte w] = _
          rw [profileFlags_eq, voteSetsByte_eq, hstands, hvote, if_pos rfl, if_pos rfl]
          rfl
  · refine ⟨_, s.attachedSet, _, rfl, hsets, ?_⟩
    rw [if_pos hempty]
    exact State.takeChosen_onlyAnswers htakes dt (a := bare .badArgument) (if_neg hempty)

end Sys2Proof.Machine
end

section
/-! SUPPORT. CLEAR ALL (R101, R137): what is left once every record is freed. -/

namespace Sys2Proof.Machine

/-! ## An empty table -/

/-- A table with no record lists none. -/
theorem recordsOf_eq_nil {t : Slots} (h : ∀ i, t.get i = none) : recordsOf t = [] := by
  rw [recordsOf, List.filterMap_eq_nil_iff]
  intro i _
  rw [h]
  rfl

/-- Evaluations over a table with no record leave no eligible preemptor, and change nothing else (R34, R51). -/
theorem State.evaluate_of_empty {s : State} (h : ∀ i, s.slots.get i = none) : s.evaluate = { s with eligible := [] } := by
  have hwalk : s.grantWalk = s := by
    simp [State.grantWalk, waitingOrder, recordsOf_eq_nil h, sortBy]
  have heligible : eligibleSet s.slots = [] := by
    rw [eligibleSet, List.filter_eq_nil_iff]
    intro i _
    rw [h]
    exact Bool.false_ne_true
  rw [State.evaluate, hwalk, State.eligibility, heligible]
  simp [holdersInEntryOrder, recordsOf_eq_nil h, sortBy]

/-- Freeings by CLEAR ALL leave every ticket notice (R8). -/
theorem State.freeEach_clearAll_notices (s : State) (w : List SlotId) (m : HostId) :
    ((s.freeEach w .clearAll).boards.get m).notices = (s.boards.get m).notices := by
  unfold State.freeEach
  induction w generalizing s with
  | nil => rfl
  | cons i w ih =>
    rw [List.foldl_cons, ih]
    cases hr : s.slots.get i with
    | none => simp only [State.free, hr]
    | some r =>
      rw [State.free_boards hr]
      split
      · rfl
      · rfl

/-- What is left from `s` to `t` where every record is freed by CLEAR ALL (R8, R73, R107). -/
structure Emptied (s t : State) : Prop where
  frame : t = { s with slots := t.slots, eligible := [], cells := t.cells, boards := t.boards }
  slots : ∀ i, t.slots.get i = none
  lines : ∀ l, if s.lineHeld l then t.atRest l else t.cells.get l = s.cells.get l
  samples : samplesKept s t
  notices : ∀ h, (t.boards.get h).notices = (s.boards.get h).notices
  boards : ∀ h, boardStands s t h
  flags : ∀ i, ∀ r ∈ s.slots.get i, (t.boards.get r.owner).clearOf r

/-- The freeing of every record. -/
theorem State.emptied (s : State) : Emptied s (s.freeAll (slotsWhere s.slots fun _ => true) .clearAll) := by
  obtain ⟨⟨m, hrun⟩, hgone⟩ := s.freeAll_run (slotsWhere s.slots fun _ => true) .clearAll
  have hslots (j : SlotId) : (s.freeAll (slotsWhere s.slots fun _ => true) .clearAll).slots.get j = none := by
    rw [hgone, mem_slotsWhere]
    cases hr : s.slots.get j with
    | none => exact .inr rfl
    | some r => exact .inl ⟨r, by simp⟩
  have hempty : s.freeAll (slotsWhere s.slots fun _ => true) .clearAll
      = { s.freeEach (slotsWhere s.slots fun _ => true) .clearAll with eligible := [] } :=
    State.evaluate_of_empty fun j => (State.evaluate_isNone _ j).mp (hslots j)
  have hnotices (h : HostId) : ((s.freeAll (slotsWhere s.slots fun _ => true) .clearAll).boards.get h).notices
      = (s.boards.get h).notices := by
    rw [hempty]
    exact State.freeEach_clearAll_notices s _ h
  have heligible : (s.freeAll (slotsWhere s.slots fun _ => true) .clearAll).eligible = [] := by rw [hempty]
  generalize s.freeAll (slotsWhere s.slots fun _ => true) .clearAll = t at *
  obtain ⟨hframe, hsamples⟩ := hrun.tableOnly
  refine ⟨?_, hslots, fun l => ?_, hsamples, hnotices, hrun.boardStands, fun i r hr => hrun.clearOf_gone hr (hslots i)⟩
  · rw [heligible] at hframe
    exact hframe
  · split
    next hheld =>
      obtain ⟨i, r, hr, hlive, hnames⟩ := hheld
      exact hrun.atRest_gone hr (hslots i) hlive hnames (.inl fun j _ _ _ _ => hslots j)
    next hheld =>
      refine hrun.cell_ne fun i _ r hr hnames => ⟨?_, hslots i⟩
      by_contra hlive
      exact hheld ⟨i, r, hr, hlive, hnames⟩

/-! ## The sessions and boards of the hosts lapsed -/

/-- Before the records are freed, CLEAR ALL changes the sessions and the vote alone (R137). -/
theorem State.cleared_frame (s : State) (n : HostId) : s.cleared n = { s.endVote with sessions := (s.cleared n).sessions } :=
  State.forHosts_induct (fun t => t = { s.endVote with sessions := t.sessions }) _ _ _ rfl fun t h _ ht => by
    rw [ht]
    rfl

/-- The sessions CLEAR ALL leaves (R101, R137). -/
theorem State.cleared_session (s : State) (n m : HostId) :
    (s.cleared n).sessions.get m =
      if has (lapsedBy s n) m then { s.sessions.get m with state := .lapsed, deadline := none, voted := false }
      else { s.sessions.get m with voted := false } := by
  have hend : s.endVote.sessions.get m = { s.sessions.get m with voted := false } := Table.get_ofFn _ _
  have hget := State.forHosts_get (fun t h => t.sessions.get h) (fun _ c => c.ended .lapsed)
    (fun t h => t.putSession h ((t.sessions.get h).ended .lapsed)) (fun _ _ => Table.get_set_self _ _ _)
    (fun _ _ _ hne => Table.get_set_ne _ _ hne) s.endVote (lapsedBy s n) m
  refine hget.trans ?_
  rw [hend]
  rfl

/-- The boards of the hosts lapsed are cleared and flagged, and nothing else changes (R101). -/
theorem State.forHosts_lapse_frame (s : State) (w : HostSet) :
    s.forHosts w (fun t h => (t.clearBoard h).flag h fun f => { f with lapsedCleared := true })
      = { s with boards := (s.forHosts w fun t h => (t.clearBoard h).flag h fun f => { f with lapsedCleared := true }).boards } :=
  State.forHosts_induct (fun t => t = { s with boards := t.boards }) s w _ rfl fun t h _ ht => by
    rw [ht]
    rfl

/-- The boards of the hosts lapsed hold LAPSED_CLEARED alone (R101). -/
theorem State.forHosts_lapse_board (s : State) (w : HostSet) (m : HostId) :
    (s.forHosts w fun t h => (t.clearBoard h).flag h fun f => { f with lapsedCleared := true }).boards.get m =
      if has w m then
        { notices := [], change := 0#48, overrun := 0#48, fault := 0#48, attn := true
          flags := { SessionFlags.clear with lapsedCleared := true } }
      else s.boards.get m := by
  refine State.forHosts_get (fun t h => t.boards.get h) (fun _ _ =>
    { notices := [], change := 0#48, overrun := 0#48, fault := 0#48, attn := true
      flags := { SessionFlags.clear with lapsedCleared := true } }) _ (fun t h => ?_) (fun t h m hne => ?_) s w m
  · refine (Table.get_set_self _ _ _).trans ?_
    have hclear : (t.clearBoard h).boards.get h = Board.empty := Table.get_set_self _ _ _
    rw [hclear]
    rfl
  · exact (Table.get_set_ne _ _ hne).trans (Table.get_set_ne _ _ hne)

/-! ## Settled -/

/-- The records of the table, counted slot by slot. -/
theorem length_recordsOf (t : Slots) : (recordsOf t).length = (List.finRange 32).countP fun i => (t.get i).isSome := by
  have hcount := countP_recordsOf t fun _ => true
  rw [List.countP_true] at hcount
  refine hcount.trans (congrArg (fun f => List.countP f (List.finRange 32)) (funext fun i => ?_))
  cases t.get i <;> rfl

/-- An admin's CLEAR ALL with no payload is carried out (R137). -/
theorem handleClearAll_of_admin {s : State} {n : HostId} {q : Request} (hadmin : has s.profile.admin n = true)
    (hempty : q.payload = []) :
    handleClearAll s n q = (s.clearAll n,
      { status := .ok, payload := [natByte (recordsOf s.slots).length, hostSetByte (lapsedBy s n)] }) := by
  rw [handleClearAll, if_pos hempty, State.isAdmin, if_pos hadmin]

/-- What an emptied table leaves, seen from a state that shares its slots, cells and profile. -/
theorem Emptied.lands {c w t : State} (hw : Emptied c w) (hslots : t.slots = w.slots) (hcells : t.cells = w.cells)
    (hprofile : t.profile = c.profile) :
    (∀ i, t.slots.get i = none) ∧ (∀ l, if c.lineHeld l then t.atRest l else t.cells.get l = c.cells.get l)
      ∧ samplesKept c t
      ∧ ∀ h, t.boards.get h = w.boards.get h → (t.boards.get h).notices = (c.boards.get h).notices ∧ boardStands c t h
        ∧ ∀ i, ∀ r ∈ c.slots.get i, r.owner = h → (t.boards.get h).clearOf r := by
  have hrest : w.profile = t.profile := by rw [hprofile, hw.frame]
  refine ⟨fun i => by rw [hslots, hw.slots], fun l => ?_, fun l => ?_, fun h hboard => ⟨?_, ?_, fun i r hr hown => ?_⟩⟩
  · have hline := hw.lines l
    rw [State.atRest, hrest] at hline
    rw [State.atRest, hcells]
    exact hline
  · rw [hcells]
    exact hw.samples l
  · rw [hboard, hw.notices]
  · have hstands := hw.boards h
    rw [boardStands, entriesStand] at hstands ⊢
    simp only [State.noticeOf] at hstands ⊢
    rw [hboard, hslots]
    exact hstands
  · rw [hboard, ← hown]
    exact hw.flags i r hr

/-- The state once every record is freed and boards are put in place, the sessions and the vote having changed before (R137). -/
theorem Emptied.withBoards {s c w : State} (hc : c = { s.endVote with sessions := c.sessions }) (hw : Emptied c w)
    (b : Table 4 Board) :
    ({ w with boards := b } : State) =
      { s with
        sessions := c.sessions, slots := w.slots, eligible := [], cells := w.cells, boards := b
        vote := { running := false, deadline := none, required := 0#4, voted := 0#4 } } := by
  rw [hw.frame, hc]
  rfl

/-- What CLEAR ALL leaves of the state (R137), the table's part as the freeing leaves it. -/
theorem State.clearAll_spec (s : State) (n : HostId) :
    ∃ w, Emptied { s.endVote with sessions := (s.cleared n).sessions } w
      ∧ s.clearAll n =
        { s with
          sessions := (s.cleared n).sessions, slots := w.slots, eligible := [], cells := w.cells, boards := (s.clearAll n).boards
          vote := { running := false, deadline := none, required := 0#4, voted := 0#4 } }
      ∧ ∀ m, (s.clearAll n).boards.get m =
        if has (lapsedBy s n) m then
          { notices := [], change := 0#48, overrun := 0#48, fault := 0#48, attn := true
            flags := { SessionFlags.clear with lapsedCleared := true } }
        else w.boards.get m := by
  have hfreed := (s.cleared n).emptied
  have hslots : (s.cleared n).slots = s.slots := (sameTable.cleared s n).1
  have hboards := State.forHosts_lapse_board ((s.cleared n).freeAll (slotsWhere s.slots fun _ => true) .clearAll) (lapsedBy s n)
  have hframe : s.clearAll n = _ :=
    State.forHosts_lapse_frame ((s.cleared n).freeAll (slotsWhere s.slots fun _ => true) .clearAll) (lapsedBy s n)
  rw [hslots] at hfreed
  exact ⟨_, by rw [← State.cleared_frame]; exact hfreed, hframe.trans (hfreed.withBoards (State.cleared_frame s n) _), hboards⟩

/-- Settles O51: the sessions lapse, the table is emptied with no notice, and the boards of the hosts lapsed are cleared and flagged. -/
theorem clearAllEmptiesTheTable : Obligations.ClearAllEmptiesTheTable := by
  unfold Obligations.ClearAllEmptiesTheTable
  intro s dt n q htakes hadmin hempty
  have hhandled := handleClearAll_of_admin (s := s.turn dt .clearAll n) (n := n) hadmin hempty
  obtain ⟨w, hw, hframe, hboards⟩ := (s.turn dt .clearAll n).clearAll_spec n
  have hsessions := State.cleared_session (s.turn dt .clearAll n) n
  have hlapsed (h : HostId) : has (lapsedBy (s.turn dt .clearAll n) n) h
      = (decide (h ≠ n) && decide ((s.sessions.get h).state = .attached)) := by
    rw [lapsedBy, has_and, State.attachedSet, has_bitsWhere, has_not, has_bitOf, Bool.and_comm, decide_not]
    rfl
  generalize (s.turn dt .clearAll n).clearAll n = t at hhandled hframe hboards
  obtain ⟨hslots, hlines, hsamples, hstands⟩ := hw.lands (t := t) (by rw [hframe]) (by rw [hframe]) (by rw [hframe]; rfl)
  have htsessions : t.sessions = ((s.turn dt .clearAll n).cleared n).sessions := by rw [hframe]
  refine ⟨_, _, congrArg Host.Outcome.next (State.takeChosen_of_handled htakes dt hhandled), hlapsed, ?_⟩
  refine ⟨State.reply_of_eq (s := { s.turn dt .clearAll n with
      sessions := t.sessions, slots := t.slots, eligible := [], cells := t.cells, boards := t.boards
      vote := { running := false, deadline := none, required := 0#4, voted := 0#4 } }) (by rw [hframe]) n q _,
    hslots, fun h => (congrArg (·.get h) htsessions).trans (hsessions h), hlines, hsamples,
    fun h hh => (hboards h).trans (if_pos hh), fun h hh => hstands h ((hboards h).trans (if_neg (by simp [hh]))),
    posts_reply (by rw [hframe]; rfl) n q ?_⟩
  rw [length_recordsOf]
  rfl

end Sys2Proof.Machine
end

section
/-! SUPPORT. Reset (R1, R69, R74, R90, R106, R121, R133), and the sampling tick cell by cell (R75 to R80, R141, R142). -/

namespace Sys2Proof.Machine

/-! ## Reset -/

/-- No slot holds a record after reset (R1). -/
theorem reset_slots (i : SlotId) : State.reset.slots.get i = none := Table.get_fill _ _ _

/-- So whatever is asked of its records holds. -/
theorem reset_records {P : SlotId → Record → Prop} (i : SlotId) (r : Record) (hr : r ∈ State.reset.slots.get i) : P i r := by
  rw [reset_slots] at hr
  cases hr

/-- Every cell is as its first sample leaves it (R69, log 9). -/
theorem reset_cells (l : LineId) : State.reset.cells.get l = Cell.reset false := Table.get_fill _ _ _

/-- Every board is empty (R106). -/
theorem reset_boards (h : HostId) : State.reset.boards.get h = Board.empty := Table.get_fill _ _ _

/-- No session has begun (R90). -/
theorem reset_sessions (h : HostId) : State.reset.sessions.get h = Session.reset := Table.get_fill _ _ _

/-- No host has a record (R10). -/
theorem reset_countOf (h : HostId) : State.reset.countOf h = 0 := by
  rw [State.countOf, List.countP_eq_zero]
  intro i _
  rw [reset_slots]
  exact Bool.false_ne_true

/-- No host has an orphan notice (R11). -/
theorem reset_orphansOf (h : HostId) : State.reset.orphansOf h = 0 := by
  rw [State.orphansOf, reset_boards]
  rfl

/-- Settles O3: the reset state has no record, no session, an empty board for each host, and every line at rest. -/
theorem resetMeetsEveryInvariant : Obligations.ResetMeetsEveryInvariant := by
  unfold Obligations.ResetMeetsEveryInvariant
  have hpresents : State.reset.presentsRight := fun l => by
    have hrest : (State.reset.profile.lines.get l).rest = .float := congrArg LineProfile.rest (Table.get_fill _ _ _)
    refine (if_pos rfl).mpr ?_
    rw [reset_cells, hrest]
    rfl
  have hattn : State.reset.attnRight := fun h => by
    rw [reset_boards]
    exact ⟨by simp [Board.empty, SessionFlags.clear], fun hr => by cases hr⟩
  have hform : State.reset.boardsInForm := fun h => by
    rw [reset_boards]
    exact ⟨List.Pairwise.nil, fun l hl => by simp [Board.empty] at hl⟩
  have hcapacity : State.reset.capacityKept := ⟨reset_records, fun h => by
    rw [reset_countOf, reset_orphansOf, reset_boards]
    exact ⟨List.nodup_nil, Nat.zero_le _⟩⟩
  have hcells : State.reset.cellsFollow := ⟨reset_records, fun l => by
    rw [reset_cells]
    exact ⟨fun x hx => (by cases hx), .inr ⟨rfl, rfl⟩⟩⟩
  have hflags : State.reset.flagsForHeldLines := fun h l hflag => by
    rw [reset_boards] at hflag
    simp [Board.empty] at hflag
  have hyields : State.reset.yieldsRight := ⟨fun i => by
    constructor
    · intro hi
      cases hi
    · rintro ⟨r, hr, -⟩
      exact reset_records (P := fun i _ => i ∈ State.reset.eligible) i r hr, reset_records⟩
  have hheartbeats : State.reset.heartbeatsRight := fun h => by
    rw [reset_sessions]
    exact ⟨fun hx => (by cases hx), fun hx => (by cases hx)⟩
  have hquota : State.reset.withinQuota := fun h => by
    rw [reset_countOf]
    exact Nat.zero_le _
  have hvote : State.reset.voteRight := ⟨fun h => by rw [reset_sessions]; exact (has_zero' h).symm, (if_neg (by decide)).mpr ⟨rfl, rfl, rfl⟩⟩
  have hintervals : State.reset.intervalsRight := ⟨by decide, by decide, by decide, fun h => by
    rw [reset_sessions]
    exact Nat.zero_le _, reset_records⟩
  exact ⟨hpresents, hattn, hform, hcapacity, hcells, hflags, reset_records, reset_records, hyields, reset_records, hheartbeats,
    reset_records, hquota, by decide, hvote, fun hrun => (by cases hrun), hintervals⟩

/-- Settles O4: HARDWARE_RESET writes every item's reset value, RESETN_RISE each cell's from its first sample. -/
theorem resetPinTakesEveryDefault : Obligations.ResetPinTakesEveryDefault := by
  unfold Obligations.ResetPinTakesEveryDefault
  intro s dt levels
  constructor
  · refine ⟨_, rfl, rfl, rfl, rfl, fun n => Table.get_fill _ _ _, fun h => Table.get_fill _ _ _, fun i => Table.get_fill _ _ _, rfl, rfl, rfl, rfl,
      fun l => ?_, fun h => ?_, fun l => Table.get_fill _ _ _, fun h => Table.get_fill _ _ _, rfl, rfl, rfl, rfl, rfl, rfl, rfl⟩
    · rw [Table.get_ofFn]
      exact ⟨rfl, rfl, rfl, rfl, rfl⟩
    · rw [Table.get_fill]
      exact ⟨⟨rfl, rfl, rfl, rfl, rfl⟩, rfl⟩
  · intro hr
    refine ⟨_, congrArg Host.Outcome.next (if_neg (by simp [hr])), rfl, ?_, ?_, fun l => ?_⟩
    · exact Nat.lt_add_of_pos_right (by decide)
    · exact Nat.le_refl _
    · exact (Table.get_ofFn _ _).trans (by rw [Table.get_ofFn]; rfl)

/-! ## One cell's sample -/

/-- The claim a cell answers to: the setting of its holder in HELD or YIELDING (R69). -/
theorem Cell.claimed_eq (c : Cell) :
    c.claimed = if (∃ x ∈ c.holder, x.state = .held ∨ x.state = .yielding) then c.applied else none := by
  unfold Cell.claimed
  cases c.holder with
  | none => simp
  | some x => simp

/-- The length of the filter (R75). -/
theorem Cell.filterLength_eq (c : Cell) :
    c.filterLength = match c.claimed with | some st => 2 ^ st.filter.val | none => 2 := by
  unfold Cell.filterLength
  cases c.claimed <;> rfl

/-- What the filter leaves (R75). -/
theorem Cell.filter_eq (c : Cell) (level : Bool) :
    c.filter level = { c with raw := level, filtered := (c.filter level).filtered, run := (c.filter level).run }
      ∧ ((c.filter level).filtered, (c.filter level).run) =
        (if level = c.filtered then (c.filtered, 0) else if c.filterLength ≤ c.run + 1 then (level, 0) else (c.filtered, c.run + 1)) := by
  unfold Cell.filter
  split
  · exact ⟨rfl, rfl⟩
  · split <;> exact ⟨rfl, rfl⟩

/-- The edges the active watch selects (R77). -/
theorem selects_iff (w : Watch) (level : Bool) :
    selects w level = true ↔ w = .both ∨ (w = .rising ∧ level = true) ∨ (w = .falling ∧ level = false) := by
  cases w <;> simp [selects]

/-- A sample that makes an edge (R75, R77). -/
theorem Cell.edge_iff (c : Cell) (level : Bool) :
    c.edge level = true ↔ c.parked = false ∧ (c.filter level).filtered ≠ c.filtered ∧ ∃ st ∈ c.claimed,
      st.watch = .both ∨ (st.watch = .rising ∧ level = true) ∨ (st.watch = .falling ∧ level = false) := by
  simp only [← selects_iff]
  unfold Cell.edge
  cases c.claimed <;> simp [and_assoc]

/-- The comparator is held off while blanking runs and at its end (R80, R142). -/
theorem Cell.heldOff_eq_false (c : Cell) (moment : Nat) :
    c.heldOff moment = false ↔ (∀ e ∈ c.blanking, e < moment) ∧ c.blankedTo < moment := by
  unfold Cell.heldOff
  cases c.blanking <;> simp

/-- The filtered level contradicts the level a setting drives (R80). -/
def contradicts (st : Setting) (level : Bool) : Bool :=
  match drivenLevel st with
  | some d => level != d
  | none => false

/-- When it does. -/
theorem contradicts_iff (st : Setting) (level : Bool) :
    contradicts st level = true
      ↔ (st.mode = .pushPull ∧ level ≠ st.level) ∨ (st.mode = .openDrain ∧ st.level = false ∧ level = true) := by
  unfold contradicts drivenLevel
  cases st.mode <;> cases st.level <;> simp

/-- A sample that parks the line (R75, R80). -/
theorem Cell.faults_iff (c : Cell) (level : Bool) (moment : Nat) :
    c.faults level moment = true ↔ c.parked = false ∧ (∀ e ∈ c.blanking, e < moment) ∧ c.blankedTo < moment
      ∧ ∃ st ∈ c.claimed, (st.mode = .pushPull ∧ (c.filter level).filtered ≠ st.level)
        ∨ (st.mode = .openDrain ∧ st.level = false ∧ (c.filter level).filtered = true) := by
  simp only [← contradicts_iff]
  rw [← and_assoc (a := ∀ e ∈ c.blanking, e < moment), ← Cell.heldOff_eq_false]
  cases hclaim : c.claimed with
  | none => simp [Cell.faults, hclaim]
  | some st =>
    have hfaults : c.faults level moment = (!c.parked && !c.heldOff moment && contradicts st (c.filter level).filtered) := by
      simp only [Cell.faults, hclaim]
      rfl
    simp [hfaults, and_assoc]

/-- A sample of a cell: the filter, and the park where it faults (R75, R80). -/
theorem Cell.sample_eq (c : Cell) (level : Bool) (moment : Nat) (rest : Rest) :
    (c.sample level moment rest).raw = level ∧ (c.sample level moment rest).holder = c.holder
      ∧ (c.sample level moment rest).applied = c.applied ∧ (c.sample level moment rest).blankedTo = c.blankedTo
      ∧ (c.sample level moment rest).filtered = (c.filter level).filtered ∧ (c.sample level moment rest).run = (c.filter level).run
      ∧ ((c.sample level moment rest).parked, (c.sample level moment rest).presented, (c.sample level moment rest).blanking)
        = if c.faults level moment then (true, rest.pin, none) else (c.parked, c.presented, c.blanking) := by
  have hfilter := (c.filter_eq level).1
  unfold Cell.sample
  split
  · have hshown : ((c.filter level).park rest).presented = rest.pin := by
      change ({ c.filter level with parked := true, blanking := none } : Cell).shown rest = rest.pin
      unfold Cell.shown
      split <;> simp
    rw [hshown, Cell.park, Cell.present, hfilter]
    exact ⟨rfl, rfl, rfl, rfl, rfl, rfl, rfl⟩
  · rw [hfilter]
    exact ⟨rfl, rfl, rfl, rfl, rfl, rfl, rfl⟩

/-! ## The tick -/

/-- Settles O40: `tick` samples each cell as `Cell.sample` says, and each board takes its own host's edges and parks. -/
theorem samplingTickFiltersWatchesCompares : Obligations.SamplingTickFiltersWatchesCompares := by
  unfold Obligations.SamplingTickFiltersWatchesCompares
  intro s levels bl be
  constructor
  · intro hr hnow
    have htime : s.tickTime = s.nextTick := if_pos hnow
    refine ⟨s.tick levels, bitsWhere fun l => (s.cells.get l).edge (has levels l),
      bitsWhere fun l => (s.cells.get l).faults (has levels l) s.nextTick, congrArg Host.Outcome.next (if_pos hr), ?_, fun l => ?_, fun h => ?_⟩
    · have hnow : (s.tick levels).now = s.nextTick := htime
      have hnext : (s.tick levels).nextTick = s.nextTick + 2 := congrArg (· + 2) htime
      rw [← hnext, ← hnow]
      exact s.tick_frame levels
    · obtain ⟨hraw, hholder, happlied, hblanked, hfiltered, hrun, hshows⟩ :=
        (s.cells.get l).sample_eq (has levels l) s.nextTick (s.restOf l)
      rw [State.tick_cell, htime]
      refine ⟨hraw, hholder, happlied, hblanked, ?_, ?_, ?_, ?_⟩
      · rw [hfiltered, hrun, ((s.cells.get l).filter_eq (has levels l)).2, Cell.filterLength_eq, Cell.claimed_eq] <;> rfl
      · rw [has_bitsWhere, Cell.edge_iff, hfiltered, Cell.claimed_eq]
      · rw [has_bitsWhere, Cell.faults_iff, hfiltered, Cell.claimed_eq]
      · rw [has_bitsWhere]
        exact hshows
    · have hboard := s.tick_board levels h
      have howns (l : LineId) : (match (s.cells.get l).holder with | some x => x.owner == h | none => false)
          = decide (∃ x ∈ (s.cells.get l).holder, x.owner = h) := by
        cases (s.cells.get l).holder <;> simp [beq_eq_decide]
      have hown (p : LineId → Cell → Bool) (l : LineId) : has (ownLines s h p) l
          = (p l (s.cells.get l) && decide (∃ x ∈ (s.cells.get l).holder, x.owner = h)) := by
        rw [ownLines, has_bitsWhere, ← howns, Bool.and_comm] <;> rfl
      rw [hboard, State.sampledBoard, htime]
      refine ⟨rfl, rfl, fun l => ⟨?_, ?_, ?_⟩⟩
      · simp only [Board.sampled, has_or, hown, has_bitsWhere]
      · simp only [Board.sampled, has_or, has_and, hown, has_bitsWhere]
        rw [Bool.and_comm _ (has (s.boards.get h).change l), Bool.and_assoc]
      · simp only [Board.sampled, has_or, hown, has_bitsWhere]
  · intro hr hblanking
    have hexec : exec (.blankingEnd bl) s = .next { s.reach be with cells := s.cells.set bl ((s.cells.get bl).unblank be) } := by
      change Host.Outcome.next _ = _
      rw [hr, hblanking]
    exact ⟨_, hexec, rfl, Table.get_set_self _ _ _, fun m hm => Table.get_set_ne _ _ hm⟩

end Sys2Proof.Machine
end

section
/-! SUPPORT. The refusals of CLAIM (R15 to R21) and of the requests that name a ticket (R23, R25, R83 to R86). -/

namespace Sys2Proof.Machine

/-! ## CLAIM -/

/-- Check 2 of a claim (R17). -/
theorem claimRefusal_of_forbidden {s : State} {n : HostId} {a : ClaimArgs} {l : LineId} (h : s.forbids n a l)
    (hleast : ∀ m, m < l → ¬ s.forbids n a m) :
    claimRefusal s n a = some { status := .notPermitted, payload := [natByte l.val] } := by
  simp only [claimRefusal, (forbiddenLine_eq_some s n a l).mpr ⟨h, hleast⟩]

/-- Check 3 of a claim (R18). -/
theorem claimRefusal_of_split {s : State} {n : HostId} {a : ClaimArgs} {g : GroupId} (hlines : ∀ l, ¬ s.forbids n a l)
    (h : s.splits a g) (hleast : ∀ m, m < g → ¬ s.splits a m) :
    claimRefusal s n a = some { status := .bondSplit, payload := [natByte g.val] } := by
  simp only [claimRefusal, (forbiddenLine_eq_none s n a).mpr hlines, (splitGroup_eq_some s a g).mpr ⟨h, hleast⟩]

/-- Checks 4 to 7 of a claim (R19, R20). -/
theorem claimRefusal_of_room {s : State} {n : HostId} {a : ClaimArgs} {st : Status} (hlines : ∀ l, ¬ s.forbids n a l)
    (hgroups : ∀ g, ¬ s.splits a g)
    (h : (s.ticketTaken n a.ticket ∧ st = .ticketInUse)
      ∨ (¬ s.ticketTaken n a.ticket ∧ (s.profile.hosts.get n).quota ≤ s.countOf n ∧ st = .quotaExceeded)
      ∨ (¬ s.ticketTaken n a.ticket ∧ s.countOf n < (s.profile.hosts.get n).quota ∧ 32 ≤ s.countOf n + s.orphansOf n ∧ st = .noticeFull)
      ∨ (¬ s.ticketTaken n a.ticket ∧ s.countOf n < (s.profile.hosts.get n).quota ∧ s.countOf n + s.orphansOf n < 32
        ∧ (∀ i, s.slots.get i ≠ none) ∧ st = .tableFull)) :
    claimRefusal s n a = some (bare st) := by
  have hticket := ticketInUse_iff s n a.ticket
  simp only [claimRefusal, (forbiddenLine_eq_none s n a).mpr hlines, (splitGroup_eq_none s a).mpr hgroups, State.recordCount_eq,
    State.orphanCount_eq, hticket]
  rcases h with ⟨htaken, rfl⟩ | ⟨hfree, hquota, rfl⟩ | ⟨hfree, hquota, hroom, rfl⟩ | ⟨hfree, hquota, hroom, hfull, rfl⟩
  · rw [if_pos htaken]
  · rw [if_neg hfree, if_pos hquota]
  · rw [if_neg hfree, if_neg (Nat.not_le.mpr hquota), if_pos hroom]
  · have hnone : freeSlot s.slots = none := (freeSlot_none s.slots).mpr hfull
    rw [if_neg hfree, if_neg (Nat.not_le.mpr hquota), if_neg (Nat.not_le.mpr hroom), hnone]
    rfl

/-- A claim that fails a check is answered by it, and nothing changes (R15). -/
theorem handleClaim_of_refusal {s : State} {n : HostId} {q : Request} {a : ClaimArgs} {x : Answer}
    (hargs : claimArgs q.payload = some a) (h : claimRefusal s n a = some x) : handleClaim s n q = (s, x) := by
  simp only [handleClaim, hargs, h]

/-- A claim that passes the checks goes into the lowest FREE slot (R1, R21). -/
theorem handleClaim_of_passes {s : State} {n : HostId} {q : Request} {a : ClaimArgs} {i : SlotId}
    (hargs : claimArgs q.payload = some a) (hpasses : s.passes n a) (hfree : s.lowestFree i) :
    handleClaim s n q = s.admitClaim n a i := by
  simp only [handleClaim, hargs, (claimRefusal_eq_none s n a).mpr hpasses, (freeSlot_eq_some s i).mpr hfree]

/-- A table with a FREE slot has a lowest one (R1). -/
theorem State.exists_lowestFree {s : State} (h : ∃ i, s.slots.get i = none) : ∃ i, s.lowestFree i := by
  cases hf : freeSlot s.slots with
  | none =>
    obtain ⟨i, hi⟩ := h
    exact absurd hi ((freeSlot_none s.slots).mp hf i)
  | some i => exact ⟨i, (freeSlot_eq_some s i).mp hf⟩

/-- A try-only claim that is not grantable is answered BUSY (R21). -/
theorem handleClaim_of_busy {s : State} {n : HostId} {q : Request} {a : ClaimArgs} (hargs : claimArgs q.payload = some a)
    (hpasses : s.passes n a) (hwait : ¬ s.grantsArrival n a) (htry : a.limit = some 0) : handleClaim s n q = (s, bare .busy) := by
  obtain ⟨i, hi⟩ := State.exists_lowestFree hpasses.2.2.2.2.2
  rw [handleClaim_of_passes hargs hpasses hi, State.admitClaim, if_neg (mt (arrivalGrantable_iff s n a).mp hwait), if_pos htry]

/-- Settles O26: the first check that fails gives the answer, and the reply alone follows. -/
theorem claimRefused : Obligations.ClaimRefused := by
  unfold Obligations.ClaimRefused
  intro s dt n q st pl htakes hrefused
  have hanswer (h : handleClaim (s.turn dt .claim n) n q = (s.turn dt .claim n, { status := st, payload := pl })) :
      ∃ t, exec (.claim dt) s = .next t ∧ onlyAnswers s t dt .claim n q st pl :=
    ⟨_, rfl, State.takeChosen_onlyAnswers htakes dt h⟩
  rcases hrefused with ⟨hbad, rfl, rfl⟩ | ⟨a, ha, hchecks⟩
  · exact exec_claim_of_malformed dt htakes hbad
  · rcases hchecks with ⟨l, hl, hleast, rfl, rfl⟩ | ⟨hlines, ⟨g, hg, hleast, rfl, rfl⟩ | ⟨hgroups, rfl, hroom⟩⟩
    · exact hanswer (handleClaim_of_refusal ha (claimRefusal_of_forbidden (s := s.turn dt .claim n) hl hleast))
    · exact hanswer (handleClaim_of_refusal ha (claimRefusal_of_split (s := s.turn dt .claim n) hlines hg hleast))
    · by_cases hbusy : s.passes n a ∧ ¬ s.grantsArrival n a ∧ a.limit = some 0 ∧ st = .busy
      · obtain ⟨hpasses, hwait, htry, rfl⟩ := hbusy
        exact hanswer (handleClaim_of_busy (s := s.turn dt .claim n) ha hpasses hwait htry)
      · refine hanswer (handleClaim_of_refusal ha (claimRefusal_of_room (s := s.turn dt .claim n) hlines hgroups ?_))
        simp only [hbusy, or_false] at hroom
        exact hroom

/-! ## Payloads that name a ticket -/

/-- The payload RELEASE and QUERY CLAIM are refused (R23, R25). -/
theorem ticketArg_eq_none (p : List Byte) : ticketArg p = none ↔ p.length ≠ 1 ∨ p.getD 0 0#8 = 0#8 := by
  match p with
  | [] | _ :: _ :: _ => simp [ticketArg]
  | [tk] => simp [ticketArg]

/-- The ticket they name (R23, R25). -/
theorem ticketArg_eq_some {p : List Byte} (hlen : p.length = 1) (htk : p.getD 0 0#8 ≠ 0#8) :
    ticketArg p = some (p.getD 0 0#8) := by
  match p, hlen with
  | [tk], _ => exact if_neg htk

/-- The payload SET LEVELS is refused by check 1 of R83 (R84). -/
theorem levelArgs_eq_none (p : List Byte) :
    levelArgs p = none ↔ p.length ≠ 3 ∨ p.getD 0 0#8 = 0#8 ∨ p.getD 1 0#8 = 0#8 := by
  match p with
  | [] | [_] | [_, _] | _ :: _ :: _ :: _ :: _ => simp [levelArgs]
  | [tk, ps, ls] => simp [levelArgs, or_iff_not_imp_left]

/-- What SET LEVELS names (R84). -/
theorem levelArgs_eq_some {p : List Byte} {a : LevelArgs} (h : levelArgs p = some a) :
    a.ticket = p.getD 0 0#8 ∧ a.positions = p.getD 1 0#8 := by
  match p with
  | [] | [_] | [_, _] | _ :: _ :: _ :: _ :: _ => simp [levelArgs] at h
  | [tk, ps, ls] =>
    simp only [levelArgs, Option.ite_none_left_eq_some, Option.some.injEq] at h
    obtain ⟨_, rfl⟩ := h
    exact ⟨rfl, rfl⟩

/-- The payload CLEAR FAULT is refused by check 1 of R83 (R86). -/
theorem clearFaultArgs_eq_none (p : List Byte) :
    clearFaultArgs p = none ↔ (p.length ≠ 1 ∧ p.length ≠ 2) ∨ p.getD 0 0#8 = 0#8 ∨ (p.length = 2 ∧ p.getD 1 0#8 = 0#8) := by
  match p with
  | [] | _ :: _ :: _ :: _ => simp [clearFaultArgs]
  | [tk] => simp [clearFaultArgs]
  | [tk, ps] => simp [clearFaultArgs, or_iff_not_imp_left]

/-- What CLEAR FAULT names (R86). -/
theorem clearFaultArgs_eq_some {p : List Byte} {a : Byte × Option Byte} (h : clearFaultArgs p = some a) :
    a.1 = p.getD 0 0#8 ∧ a.2 = if p.length = 2 then some (p.getD 1 0#8) else none := by
  match p with
  | [] | _ :: _ :: _ :: _ => simp [clearFaultArgs] at h
  | [tk] =>
    simp only [clearFaultArgs, Option.ite_none_left_eq_some, Option.some.injEq] at h
    obtain ⟨_, rfl⟩ := h
    exact ⟨rfl, rfl⟩
  | [tk, ps] =>
    simp only [clearFaultArgs, Option.ite_none_left_eq_some, Option.some.injEq] at h
    obtain ⟨_, rfl⟩ := h
    exact ⟨rfl, rfl⟩

/-- The pairs of bytes are read two by two. -/
theorem bytePairs_length {es : List Byte} {k : Nat} (hlen : es.length = 2 * k) :
    ∃ ps, bytePairs es = some ps ∧ ps.length = k ∧ ∀ j (hj : j < ps.length), ps[j] = (es.getD (2 * j) 0#8, es.getD (2 * j + 1) 0#8) := by
  induction k generalizing es with
  | zero =>
    obtain rfl : es = [] := by simpa using hlen
    exact ⟨[], rfl, rfl, fun j hj => absurd hj (Nat.not_lt_zero j)⟩
  | succ k ih =>
    match es, hlen with
    | a :: b :: rest, hlen =>
      obtain ⟨ps, hps, hcount, hpairs⟩ := ih (es := rest) (by simp only [List.length_cons] at hlen; omega)
      refine ⟨(a, b) :: ps, by simp [bytePairs, hps], by simp [hcount], fun j hj => ?_⟩
      cases j with
      | zero => rfl
      | succ j => exact hpairs j (by simpa using hj)

/-- The payload RECONFIGURE is refused by check 1 of R83 (R85). -/
theorem reconfigureArgs_eq_none (p : List Byte) :
    reconfigureArgs p = none ↔ p.length < 2 ∨ p.getD 0 0#8 = 0#8 ∨ p.getD 1 0#8 = 0#8 ∨ 8 < (p.getD 1 0#8).toNat
      ∨ p.length ≠ 2 + 2 * (p.getD 1 0#8).toNat := by
  match p with
  | [] | [_] => simp [reconfigureArgs]
  | tk :: j :: rest =>
    have hzero : j = 0#8 ↔ j.toNat = 0 := (BitVec.toNat_inj (x := j) (y := 0#8)).symm
    have hlen : (tk :: j :: rest).length ≠ 2 + 2 * j.toNat ↔ rest.length ≠ 2 * j.toNat := by
      simp only [List.length_cons]
      omega
    have hshort : ¬ (tk :: j :: rest).length < 2 := by simp
    simp only [List.getD_cons_zero, List.getD_cons_succ, hzero, hlen, hshort, false_or, reconfigureArgs, ite_eq_left_iff,
      Option.map_eq_none_iff]
    constructor
    · intro h
      by_contra hnot
      obtain ⟨ps, hps, _⟩ := bytePairs_length (not_not.mp (not_or.mp (not_or.mp (not_or.mp hnot).2).2).2)
      rw [h hnot] at hps
      cases hps
    · exact fun h hnot => absurd h hnot

/-- What RECONFIGURE names (R85). -/
theorem reconfigureArgs_eq_some {p : List Byte} {a : Byte × List (Byte × Byte)} (h : reconfigureArgs p = some a) :
    a.1 = p.getD 0 0#8 ∧ a.2.length = (p.getD 1 0#8).toNat
      ∧ ∀ j (hj : j < a.2.length), a.2[j] = (p.getD (2 + 2 * j) 0#8, p.getD (3 + 2 * j) 0#8) := by
  match p with
  | [] | [_] => simp [reconfigureArgs] at h
  | tk :: j :: rest =>
    simp only [reconfigureArgs, Option.ite_none_left_eq_some, Option.map_eq_some_iff] at h
    obtain ⟨hfits, ps, hps, rfl⟩ := h
    obtain ⟨ps', hps', hcount, hpairs⟩ := bytePairs_length (not_not.mp (not_or.mp (not_or.mp (not_or.mp hfits).2).2).2)
    obtain rfl : ps = ps' := Option.some.inj (hps.symm.trans hps')
    refine ⟨rfl, hcount, fun x hx => (hpairs x hx).trans ?_⟩
    rw [show 2 + 2 * x = 2 * x + 1 + 1 by omega, show 3 + 2 * x = 2 * x + 1 + 1 + 1 by omega]
    rfl

/-! ## Check 3 of R83 -/

/-- A position set lies below a count exactly when each of its positions does. -/
theorem positionsBelow_iff (ps : Byte) (count : Nat) : positionsBelow ps count = true ↔ ∀ x, ps.getLsbD x = true → x < count := by
  rw [positionsBelow, decide_eq_true_iff]
  constructor
  · intro hlt x hx
    by_contra hle
    have hpow : ps.toNat < 2 ^ x := lt_of_lt_of_le hlt (Nat.pow_le_pow_right (by decide) (Nat.le_of_not_lt hle))
    rw [BitVec.getLsbD, Nat.testBit_lt_two_pow hpow] at hx
    cases hx
  · intro h
    refine Nat.lt_pow_two_of_testBit _ fun x hx => ?_
    by_contra hbit
    exact absurd (h x (by simpa [BitVec.getLsbD] using hbit)) (Nat.not_lt.mpr hx)

/-- A position set that does not lie below a count names a position that does not. -/
theorem positionsBelow_eq_false (ps : Byte) (count : Nat) :
    positionsBelow ps count = false ↔ ∃ x, x < 256 ∧ ps.getLsbD x = true ∧ count ≤ x := by
  rw [← Bool.not_eq_true, positionsBelow_iff]
  constructor
  · intro h
    simp only [not_forall, not_lt] at h
    obtain ⟨x, hx, hle⟩ := h
    have hbound : x < 8 := by
      by_contra hge
      rw [BitVec.getLsbD_of_ge ps x (Nat.le_of_not_lt hge)] at hx
      cases hx
    exact ⟨x, by omega, hx, hle⟩
  · rintro ⟨x, _, hx, hle⟩ h
    exact absurd (h x hx) (Nat.not_lt.mpr hle)

/-- A list is not mapped whole exactly when some member is not mapped. -/
theorem mapM_eq_none_iff {α β : Type} (f : α → Option β) (l : List α) : l.mapM f = none ↔ ∃ x ∈ l, f x = none := by
  induction l with
  | nil => simp
  | cons a l ih =>
    rw [List.mapM_cons]
    cases hf : f a with
    | none => simp [hf]
    | some b => cases hl : l.mapM f <;> simp_all

/-- The settings a RECONFIGURE names are refused by check 3 of R83 (R85). -/
theorem namedSettings_eq_none (count : Nat) (ps : List (Byte × Byte)) :
    namedSettings count ps = none ↔ ¬ (ps.map fun x => x.1).Nodup ∨ ∃ x ∈ ps, count ≤ x.1.toNat ∨ 5 ≤ x.2.toNat % 8 := by
  unfold namedSettings
  split
  next hnodup =>
    rw [mapM_eq_none_iff, or_iff_right (not_not.mpr hnodup)]
    refine exists_congr fun x => and_congr_right fun _ => ?_
    by_cases hlt : x.1.toNat < count
    · rw [if_pos hlt, Option.map_eq_none_iff, setting_ofByte_eq_none, or_iff_right (Nat.not_le.mpr hlt)]
    · simp [hlt, Nat.le_of_not_lt hlt]
  next hnodup => simp [hnodup]

/-- Two members of a list share a value. -/
theorem not_nodup_map_iff {α β : Type} (f : α → β) (l : List α) :
    ¬ (l.map f).Nodup ↔ ∃ j, ∃ hj : j < l.length, ∃ i, ∃ hi : i < j, f (l[i]'(hi.trans hj)) = f l[j] := by
  rw [List.Nodup, List.pairwise_map, List.pairwise_iff_getElem]
  constructor
  · intro h
    by_contra hnone
    exact h fun i j hi hj hij heq => hnone ⟨j, hj, i, hij, heq⟩
  · rintro ⟨j, hj, i, hi, heq⟩ hne
    exact hne i j _ hj hi heq

/-- Check 3 of R83 for a RECONFIGURE, read off its payload (R85). -/
theorem namedSettings_iff_bad {p : List Byte} {a : Byte × List (Byte × Byte)} (hargs : reconfigureArgs p = some a) (count : Nat) :
    namedSettings count a.2 = none ↔ positionsBad .reconfigure p count := by
  obtain ⟨_, hlen, hpairs⟩ := reconfigureArgs_eq_some hargs
  have htwice : ¬ (a.2.map fun x => x.1).Nodup ↔
      ∃ j, j < (p.getD 1 0#8).toNat ∧ ∃ i, i < j ∧ p.getD (2 + 2 * i) 0#8 = p.getD (2 + 2 * j) 0#8 := by
    rw [not_nodup_map_iff]
    constructor
    · rintro ⟨j, hj, i, hi, heq⟩
      rw [hpairs, hpairs] at heq
      exact ⟨j, hlen ▸ hj, i, hi, heq⟩
    · rintro ⟨j, hj, i, hi, heq⟩
      have hj' : j < a.2.length := hlen.symm ▸ hj
      refine ⟨j, hj', i, hi, ?_⟩
      rw [hpairs, hpairs]
      exact heq
  have hmember (P : Byte × Byte → Prop) : (∃ x ∈ a.2, P x) ↔
      ∃ j, j < (p.getD 1 0#8).toNat ∧ P (p.getD (2 + 2 * j) 0#8, p.getD (3 + 2 * j) 0#8) := by
    constructor
    · rintro ⟨x, hx, hP⟩
      obtain ⟨j, hj, rfl⟩ := List.mem_iff_getElem.mp hx
      exact ⟨j, hlen ▸ hj, hpairs j hj ▸ hP⟩
    · rintro ⟨j, hj, hP⟩
      have hj' : j < a.2.length := hlen.symm ▸ hj
      exact ⟨a.2[j], List.getElem_mem _, (hpairs j hj').symm ▸ hP⟩
  rw [namedSettings_eq_none, htwice, hmember]
  simp only [positionsBad, namesPosition, reduceCtorEq, false_and, true_and, false_or, or_false]
  constructor
  · rintro (⟨j, hj, i, hi, heq⟩ | ⟨j, hj, hfar | hmode⟩)
    · exact .inr ⟨j, hj, .inr ⟨i, hi, heq⟩⟩
    · exact .inl ⟨_, (p.getD (2 + 2 * j) 0#8).isLt, ⟨j, hj, rfl⟩, hfar⟩
    · exact .inr ⟨j, hj, .inl hmode⟩
  · rintro (⟨_, _, ⟨j, hj, rfl⟩, hfar⟩ | ⟨j, hj, hmode | ⟨i, hi, heq⟩⟩)
    · exact .inr ⟨j, hj, .inl hfar⟩
    · exact .inr ⟨j, hj, .inr hmode⟩
    · exact .inl ⟨j, hj, i, hi, heq⟩

/-! ## The lines of named positions -/

/-- The lines at the positions that satisfy a test. -/
theorem mem_linesAt (r : Record) (p : Nat → LineEntry → Bool) (l : LineId) :
    l ∈ linesAt r p ↔ ∃ x ∈ r.lines.zipIdx, p x.2 x.1 = true ∧ x.1.line = l := by
  simp only [linesAt, List.mem_map, List.mem_filter]
  exact exists_congr fun x => and_assoc

/-- They ascend where the record's lines do (R3). -/
theorem linesAt_ascending {r : Record} (h : r.lines.Pairwise fun a b => a.line < b.line) (p : Nat → LineEntry → Bool) :
    (linesAt r p).Pairwise (· < ·) := by
  have hlines : (r.lines.zipIdx.map Prod.fst).Pairwise fun a b => a.line < b.line := by rwa [List.zipIdx_map_fst]
  exact List.pairwise_map.mpr ((List.pairwise_map.mp hlines).filter _)

/-- The least of them comes first. -/
theorem linesAt_eq_cons {r : Record} (h : r.lines.Pairwise fun a b => a.line < b.line) {p : Nat → LineEntry → Bool} {l : LineId}
    (hl : l ∈ linesAt r p) (hleast : ∀ m, m < l → m ∉ linesAt r p) : ∃ rest, linesAt r p = l :: rest := by
  have hascending := linesAt_ascending h p
  cases hlist : linesAt r p with
  | nil =>
    rw [hlist] at hl
    cases hl
  | cons m rest =>
    rw [hlist] at hl hleast hascending
    rcases List.mem_cons.mp hl with rfl | hrest
    · exact ⟨rest, rfl⟩
    · exact absurd List.mem_cons_self (hleast m ((List.pairwise_cons.mp hascending).1 l hrest))

/-- There are none where no position passes the test. -/
theorem linesAt_eq_nil {r : Record} {p : Nat → LineEntry → Bool} (h : ∀ l, l ∉ linesAt r p) : linesAt r p = [] :=
  List.eq_nil_iff_forall_not_mem.mpr h

/-- The lines at named positions that stand in an input mode (R83, check 5). -/
theorem mem_linesAt_input (r : Record) (p : List Byte) (l : LineId) :
    l ∈ linesAt r (fun x e => positionIn (p.getD 1 0#8) x && isInputMode e.setting.mode) ↔ r.inputAt p l := by
  have hmode (m : Mode) : isInputMode m = true ↔ m ≠ .openDrain ∧ m ≠ .pushPull := by cases m <;> simp [isInputMode]
  simp only [mem_linesAt, positionIn, Bool.and_eq_true, hmode, Record.inputAt]
  refine exists_congr fun x => and_congr_right fun _ => ?_
  tauto

/-- The lines at named positions that are parked (R83, check 6). -/
theorem mem_linesAt_parked (s : State) (r : Record) (p : List Byte) (l : LineId) :
    l ∈ linesAt r (fun x e => positionIn (p.getD 1 0#8) x && (s.cells.get e.line).parked) ↔ s.parkedAt r p l := by
  simp only [mem_linesAt, positionIn, Bool.and_eq_true, State.parkedAt]
  refine exists_congr fun x => and_congr_right fun _ => ?_
  constructor
  · rintro ⟨⟨hnamed, hparked⟩, rfl⟩
    exact ⟨hnamed, rfl, hparked⟩
  · rintro ⟨hnamed, rfl, hparked⟩
    exact ⟨⟨hnamed, hparked⟩, rfl⟩

/-! ## Refusals -/

/-- A record presents while HELD or YIELDING (R83, check 4). -/
theorem presenting_iff (r : Record) : r.presenting = true ↔ r.state = .held ∨ r.state = .yielding := by
  simp [Record.presenting]

/-- Check 1 of R83 for SET LEVELS. -/
theorem levelArgs_iff_malformed (p : List Byte) : levelArgs p = none ↔ lineMalformed .setLevels p := by
  rw [levelArgs_eq_none]
  simp only [lineMalformed, reduceCtorEq, false_and, true_and, or_false]

/-- Check 1 of R83 for RECONFIGURE. -/
theorem reconfigureArgs_iff_malformed (p : List Byte) : reconfigureArgs p = none ↔ lineMalformed .reconfigure p := by
  rw [reconfigureArgs_eq_none]
  simp only [lineMalformed, reduceCtorEq, false_and, true_and, false_or, or_false]

/-- Check 1 of R83 for CLEAR FAULT. -/
theorem clearFaultArgs_iff_malformed (p : List Byte) : clearFaultArgs p = none ↔ lineMalformed .clearFault p := by
  rw [clearFaultArgs_eq_none]
  simp only [lineMalformed, reduceCtorEq, false_and, true_and, false_or]

/-- Check 3 of R83 for SET LEVELS. -/
theorem positionsBelow_iff_levels (p : List Byte) (count : Nat) :
    positionsBelow (p.getD 1 0#8) count = false ↔ positionsBad .setLevels p count := by
  rw [positionsBelow_eq_false]
  simp only [positionsBad, namesPosition, reduceCtorEq, false_and, true_and, or_false]

/-- Check 3 of R83 for CLEAR FAULT. -/
theorem positionsBelow_iff_faults (p : List Byte) (count : Nat) :
    ((if p.length = 2 then some (p.getD 1 0#8) else none : Option Byte).all fun w => positionsBelow w count) = false
      ↔ positionsBad .clearFault p count := by
  simp only [positionsBad, namesPosition, reduceCtorEq, false_and, true_and, false_or, or_false]
  by_cases hlen : p.length = 2
  · rw [if_pos hlen, Option.all_some, positionsBelow_eq_false]
    simp only [hlen, true_and]
  · rw [if_neg hlen]
    simp [hlen]

/-- SET LEVELS on a record whose named positions stand in an input mode or are parked (R83, checks 5 and 6). -/
theorem State.applyLevels_of_refused {s : State} {i : SlotId} {r : Record} {a : LevelArgs} {p : List Byte} {st : Status}
    {pl : List Byte} (ha : a.positions = p.getD 1 0#8) (hlines : r.lines.Pairwise fun a b => a.line < b.line)
    (h : (∃ l, r.inputAt p l ∧ (∀ m, m < l → ¬ r.inputAt p m) ∧ st = .wrongMode ∧ pl = [BitVec.ofNat 8 l.val])
      ∨ ((∀ l, ¬ r.inputAt p l) ∧ ∃ l, s.parkedAt r p l ∧ (∀ m, m < l → ¬ s.parkedAt r p m) ∧ st = .lineFault
          ∧ pl = [BitVec.ofNat 8 l.val])) :
    s.applyLevels i r a = (s, { status := st, payload := pl }) := by
  unfold State.applyLevels
  rw [ha]
  simp only [← mem_linesAt_input, ← mem_linesAt_parked] at h
  rcases h with ⟨l, hl, hleast, rfl, rfl⟩ | ⟨hnone, l, hl, hleast, rfl, rfl⟩
  · obtain ⟨rest, hrest⟩ := linesAt_eq_cons hlines hl hleast
    rw [hrest]
    rfl
  · obtain ⟨rest, hrest⟩ := linesAt_eq_cons hlines hl hleast
    rw [linesAt_eq_nil hnone, hrest]
    rfl

/-- Checks 1 to 4 of R83 for the answer `x` of a request of kind `k`, one by one; checks 5 and 6 are SET LEVELS' own. -/
theorem State.lineRefused.answer {s : State} {k : Kind} {n : HostId} {p : List Byte} {st : Status} {pl : List Byte}
    {x : State × Answer} (h : s.lineRefused k n p st pl) (hbad : lineMalformed k p → x = (s, bare .badArgument))
    (hnone : ¬ lineMalformed k p → findTicket s.slots n (p.getD 0 0#8) = none → x = (s, bare .noSuchClaim))
    (hfound : ¬ lineMalformed k p → ∀ i r, findTicket s.slots n (p.getD 0 0#8) = some (i, r) →
      (positionsBad k p r.lines.length → x = (s, bare .badArgument))
        ∧ (¬ positionsBad k p r.lines.length → r.presenting = false → x = (s, bare .wrongState))
        ∧ (¬ positionsBad k p r.lines.length → r.presenting = true → k = .setLevels →
          r.lines.Pairwise (fun a b => a.line < b.line) →
          (∃ l, r.inputAt p l ∧ (∀ m, m < l → ¬ r.inputAt p m) ∧ st = .wrongMode ∧ pl = [BitVec.ofNat 8 l.val])
            ∨ ((∀ l, ¬ r.inputAt p l) ∧ ∃ l, s.parkedAt r p l ∧ (∀ m, m < l → ¬ s.parkedAt r p m) ∧ st = .lineFault
                ∧ pl = [BitVec.ofNat 8 l.val]) →
          x = (s, { status := st, payload := pl }))) : x = (s, { status := st, payload := pl }) := by
  rcases h with ⟨hmal, rfl, rfl⟩ | ⟨hmal, howns, rfl, rfl⟩ | ⟨hmal, i, r, _, howns, hchecks⟩
  · exact hbad hmal
  · exact hnone hmal ((findTicket_none _ _ _).mpr howns)
  · obtain ⟨hpos, hstate, hlines⟩ := hfound hmal i r (State.findTicket_of_owns howns)
    rcases hchecks with ⟨hp, rfl, rfl⟩ | ⟨hp, hheld, hyielding, rfl, rfl⟩ | ⟨hp, hpresents, hk, hascend, hcheck⟩
    · exact hpos hp
    · exact hstate hp (by simp [Record.presenting, hheld, hyielding])
    · exact hlines hp ((presenting_iff r).mpr hpresents) hk hascend hcheck

/-- SET LEVELS, refused (R83, R84). -/
theorem handleSetLevels_of_refused {s : State} {n : HostId} {q : Request} {st : Status} {pl : List Byte}
    (h : s.lineRefused .setLevels n q.payload st pl) : handleSetLevels s n q = (s, { status := st, payload := pl }) := by
  cases hargs : levelArgs q.payload with
  | none =>
    have hmal := (levelArgs_iff_malformed _).mp hargs
    exact h.answer (fun _ => by simp only [handleSetLevels, hargs]) (fun hnot => absurd hmal hnot) fun hnot => absurd hmal hnot
  | some a =>
    obtain ⟨hticket, hpositions⟩ := levelArgs_eq_some hargs
    refine h.answer (fun hmal => ?_) (fun _ hnone => ?_) fun _ i r hfound => ?_
    · rw [(levelArgs_iff_malformed _).mpr hmal] at hargs
      cases hargs
    · simp only [handleSetLevels, hargs, hticket, hnone]
    · rw [← positionsBelow_iff_levels, ← hpositions, Bool.not_eq_false]
      refine ⟨fun hpos => ?_, fun hpos hstate => ?_, fun hpos hpresents _ hascend hcheck => ?_⟩
      · simp only [handleSetLevels, hargs, hticket, hfound]
        exact if_neg (by simp [hpos])
      · simp only [handleSetLevels, hargs, hticket, hfound]
        exact (if_pos hpos).trans (if_neg (by simp [hstate]))
      · simp only [handleSetLevels, hargs, hticket, hfound, hpos, hpresents, if_true]
        exact State.applyLevels_of_refused hpositions hascend hcheck

/-- RECONFIGURE, refused (R83, R85). -/
theorem handleReconfigure_of_refused {s : State} {n : HostId} {q : Request} {st : Status} {pl : List Byte}
    (h : s.lineRefused .reconfigure n q.payload st pl) : handleReconfigure s n q = (s, { status := st, payload := pl }) := by
  cases hargs : reconfigureArgs q.payload with
  | none =>
    have hmal := (reconfigureArgs_iff_malformed _).mp hargs
    exact h.answer (fun _ => by simp only [handleReconfigure, hargs]) (fun hnot => absurd hmal hnot) fun hnot => absurd hmal hnot
  | some a =>
    obtain ⟨tk, pairs⟩ := a
    obtain ⟨hticket, _⟩ := reconfigureArgs_eq_some hargs
    refine h.answer (fun hmal => ?_) (fun _ hnone => ?_) fun _ i r hfound => ?_
    · rw [(reconfigureArgs_iff_malformed _).mpr hmal] at hargs
      cases hargs
    · rw [← hticket] at hnone
      simp only [handleReconfigure, hargs, hnone]
    · rw [← hticket] at hfound
      rw [← namedSettings_iff_bad hargs]
      refine ⟨fun hpos => ?_, fun hpos hstate => ?_, fun _ _ hk => by cases hk⟩
      · simp only [handleReconfigure, hargs, hfound, hpos]
      · obtain ⟨named, hnamed⟩ := Option.ne_none_iff_exists'.mp hpos
        simp [handleReconfigure, hargs, hfound, hnamed, hstate]

/-- CLEAR FAULT, refused (R83, R86). -/
theorem handleClearFault_of_refused {s : State} {n : HostId} {q : Request} {st : Status} {pl : List Byte}
    (h : s.lineRefused .clearFault n q.payload st pl) : handleClearFault s n q = (s, { status := st, payload := pl }) := by
  cases hargs : clearFaultArgs q.payload with
  | none =>
    have hmal := (clearFaultArgs_iff_malformed _).mp hargs
    exact h.answer (fun _ => by simp only [handleClearFault, hargs]) (fun hnot => absurd hmal hnot) fun hnot => absurd hmal hnot
  | some a =>
    obtain ⟨tk, ps⟩ := a
    obtain ⟨hticket, hpositions⟩ := clearFaultArgs_eq_some hargs
    refine h.answer (fun hmal => ?_) (fun _ hnone => ?_) fun _ i r hfound => ?_
    · rw [(clearFaultArgs_iff_malformed _).mpr hmal] at hargs
      cases hargs
    · rw [← hticket] at hnone
      simp only [handleClearFault, hargs, hnone]
    · rw [← hticket] at hfound
      rw [← positionsBelow_iff_faults, ← hpositions, Bool.not_eq_false]
      refine ⟨fun hpos => ?_, fun hpos hstate => ?_, fun _ _ hk => by cases hk⟩
      · simp only [handleClearFault, hargs, hfound]
        exact if_neg (by simp [hpos])
      · simp only [handleClearFault, hargs, hfound]
        exact (if_pos hpos).trans (if_neg (by simp [hstate]))

/-- RELEASE and QUERY CLAIM, refused (R23, R25). -/
theorem handleTicket_of_refused {s : State} {n : HostId} {q : Request} {st : Status}
    (h : ((q.payload.length ≠ 1 ∨ q.payload.getD 0 0#8 = 0#8) ∧ st = .badArgument)
      ∨ (q.payload.length = 1 ∧ q.payload.getD 0 0#8 ≠ 0#8 ∧ s.ownsNone n (q.payload.getD 0 0#8) ∧ st = .noSuchClaim)) :
    handleRelease s n q = (s, bare st) ∧ handleQueryClaim s n q = (s, bare st) := by
  rcases h with ⟨hbad, rfl⟩ | ⟨hlen, htk, hnone, rfl⟩
  · have hargs := (ticketArg_eq_none _).mpr hbad
    constructor
    · simp only [handleRelease, hargs]
    · simp only [handleQueryClaim, hargs]
  · have hargs := ticketArg_eq_some hlen htk
    have hfind := (findTicket_none s.slots n _).mpr hnone
    constructor
    · simp only [handleRelease, hargs, hfind]
    · simp only [handleQueryClaim, hargs, hfind]

/-- Settles O34: the first check that fails gives the answer, and the reply alone follows. -/
theorem ticketRequestsRefused : Obligations.TicketRequestsRefused := by
  unfold Obligations.TicketRequestsRefused
  intro s dt n q k c st pl hc htakes hrefused
  simp only [List.mem_cons, Prod.mk.injEq, List.not_mem_nil, or_false] at hc
  rcases hc with ⟨rfl, rfl⟩ | ⟨rfl, rfl⟩ | ⟨rfl, rfl⟩ | ⟨rfl, rfl⟩ | ⟨rfl, rfl⟩
  · obtain ⟨rfl, hwhy⟩ := (if_pos (.inl rfl)).mp hrefused
    exact ⟨_, rfl, State.takeChosen_onlyAnswers htakes dt (handleTicket_of_refused (s := s.turn dt .release n) hwhy).1⟩
  · obtain ⟨rfl, hwhy⟩ := (if_pos (.inr rfl)).mp hrefused
    exact ⟨_, rfl, State.takeChosen_onlyAnswers htakes dt (handleTicket_of_refused (s := s.turn dt .queryClaim n) hwhy).2⟩
  · exact ⟨_, rfl, State.takeChosen_onlyAnswers htakes dt (handleSetLevels_of_refused (s := s.turn dt .setLevels n) hrefused)⟩
  · exact ⟨_, rfl, State.takeChosen_onlyAnswers htakes dt (handleReconfigure_of_refused (s := s.turn dt .reconfigure n) hrefused)⟩
  · exact ⟨_, rfl, State.takeChosen_onlyAnswers htakes dt (handleClearFault_of_refused (s := s.turn dt .clearFault n) hrefused)⟩

end Sys2Proof.Machine
end

section
/-! SUPPORT. QUERY CLAIM (R22, R25, R26): the queue position, and the bytes of the report. -/

namespace Sys2Proof.Machine

/-! ## The queue position -/

/-- In a queue in order, the records in front of a record are those ahead of it (R27, R29). -/
theorem length_takeWhile_ahead {l : List (SlotId × Record)} {i : SlotId} {r : Record}
    (hordered : l.Pairwise fun x y => ¬ y.2.before x.2) (hmem : (i, r) ∈ l) (hslot : ∀ x ∈ l, x.1 = i → x.2 = r)
    (hentry : ∀ x ∈ l, x.1 ≠ i → x.2.entry ≠ r.entry) :
    (l.takeWhile fun x => x.1 != i).length = l.countP fun x => ahead x (i, r) := by
  induction l with
  | nil => cases hmem
  | cons x l ih =>
    obtain ⟨hfirst, hrest⟩ := List.pairwise_cons.mp hordered
    by_cases hx : x.1 = i
    · have hrecord : x.2 = r := hslot x List.mem_cons_self hx
      have hself : ¬ r.before r := by simp [Record.before]
      have hnone : (x :: l).countP (fun x => ahead x (i, r)) = 0 := by
        rw [List.countP_eq_zero]
        intro y hy
        rw [ahead_iff]
        rcases List.mem_cons.mp hy with rfl | hy
        · rw [hrecord]
          exact hself
        · rw [← hrecord]
          exact hfirst y hy
      rw [hnone, List.takeWhile_cons_of_neg (by simp [hx])]
      rfl
    · have hin : (i, r) ∈ l := (List.mem_cons.mp hmem).resolve_left fun h => hx (by rw [← h])
      have hahead : ahead x (i, r) = true := by
        have hnot := hfirst _ hin
        have hne := hentry x List.mem_cons_self hx
        rw [ahead_iff]
        simp only [Record.before] at hnot ⊢
        omega
      rw [List.takeWhile_cons_of_pos (by simpa using hx), 
        List.countP_cons_of_pos (p := fun x => ahead x (i, r)) hahead, List.length_cons,
        ih hrest hin (fun y hy => hslot y (List.mem_cons_of_mem _ hy))
        fun y hy => hentry y (List.mem_cons_of_mem _ hy)]

/-- The records in front of a WAITING record in a line's queue (R29). -/
theorem aheadIn_eq {s : State} {i : SlotId} {r : Record} (hr : s.slots.get i = some r) (hwaiting : r.state = .waiting)
    (halone : ∀ j, ∀ w ∈ s.slots.get j, w.entry = r.entry → j = i) {l : LineId} (hl : r.names l = true) :
    aheadIn s.slots i l = s.aheadOf r l := by
  have hqueue {x : SlotId × Record} (hx : x ∈ queueOf s.slots l) : s.slots.get x.1 = some x.2 :=
    ((mem_waitingOrder _ _ _).mp (List.mem_filter.mp hx).1).1
  calc aheadIn s.slots i l
    _ = (queueOf s.slots l).countP fun x => ahead x (i, r) := by
      refine length_takeWhile_ahead ((waitingOrder_ordered s.slots).filter _)
        (List.mem_filter.mpr ⟨(mem_waitingOrder _ _ _).mpr ⟨hr, hwaiting⟩, hl⟩) (fun x hx hslot => ?_) fun x hx hne heq => ?_
      · have := hqueue hx
        rw [hslot, hr] at this
        exact (Option.some.inj this).symm
      · exact hne (halone _ _ (hqueue hx) heq)
    _ = (waitingOrder s.slots).countP fun x => ahead x (i, r) && x.2.names l := List.countP_filter
    _ = ((recordsOf s.slots).filter fun x => x.2.state == .waiting).countP fun x => ahead x (i, r) && x.2.names l :=
      (sortBy_perm _ _).countP_eq _
    _ = (recordsOf s.slots).countP fun x => ahead x (i, r) && x.2.names l && x.2.state == .waiting := List.countP_filter
    _ = s.aheadOf r l := by
      rw [countP_recordsOf]
      refine List.countP_congr fun j _ => ?_
      cases s.slots.get j with
      | none => rfl
      | some w =>
        simp only [ahead, Bool.and_eq_true]
        exact ⟨fun ⟨⟨ha, hn⟩, hw⟩ => ⟨⟨hw, hn⟩, ha⟩, fun ⟨⟨hw, hn⟩, ha⟩ => ⟨⟨ha, hn⟩, hw⟩⟩

/-- The greatest of a list that is not empty, and 0, is one of the list, and no less than any. -/
theorem foldl_max_spec {l : List Nat} (hne : l ≠ []) : l.foldl max 0 ∈ l ∧ ∀ x ∈ l, x ≤ l.foldl max 0 := by
  have hmax : (0 :: l).max? = some (l.foldl max 0) := List.max?_cons'
  have hle (x : Nat) (hx : x ∈ l) : x ≤ l.foldl max 0 := by
    simpa [hmax] using List.le_max?_getD_of_mem (k := 0) (List.mem_cons_of_mem 0 hx)
  refine ⟨?_, hle⟩
  rcases List.mem_cons.mp (List.max?_mem hmax) with hzero | hmem
  · obtain ⟨x, hx⟩ := List.exists_mem_of_ne_nil l hne
    have := hle x hx
    rw [hzero, Nat.le_zero] at this
    rw [hzero, ← this]
    exact hx
  · exact hmem

/-- The queue position of a WAITING record (R22). -/
theorem positionOf_standsAt {s : State} {i : SlotId} {r : Record} (hr : s.slots.get i = some r) (hwaiting : r.state = .waiting)
    (halone : ∀ j, ∀ w ∈ s.slots.get j, w.entry = r.entry → j = i) (hlines : r.lines ≠ []) :
    s.standsAt r (positionOf s.slots i r) := by
  obtain ⟨hmem, hle⟩ := foldl_max_spec (l := r.lines.map fun e => aheadIn s.slots i e.line) (by simpa using hlines)
  constructor
  · intro l hl
    obtain ⟨e, he, rfl⟩ := (Record.names_iff r l).mp hl
    have := hle _ (List.mem_map.mpr ⟨e, he, rfl⟩)
    rw [aheadIn_eq hr hwaiting halone hl] at this
    rw [positionOf]
    omega
  · obtain ⟨e, he, heq⟩ := List.mem_map.mp hmem
    have hl : r.names e.line = true := (Record.names_iff r _).mpr ⟨e, he, rfl⟩
    refine ⟨e.line, hl, ?_⟩
    rw [positionOf, ← heq, aheadIn_eq hr hwaiting halone hl, Nat.add_comm]

/-! ## The report -/

/-- The bytes of an optional field (R161). -/
theorem optionalBytes_eq (x : Option Nat) : optionalBytes x = match x with | some w => twoBytes w | none => [] := by
  cases x with
  | none => rfl
  | some w => exact natBytes2_eq w

/-- The bytes of line entries (R161). -/
theorem entryBytes_eq (es : List LineEntry) :
    entryBytes es = es.flatMap fun e => [BitVec.ofNat 8 e.line.val, BitVec.ofNat 8 e.setting.number] := by
  refine List.flatMap_congr fun e _ => ?_
  rw [setting_byte_eq, natByte]

/-- The time left in the report, in the unit of the record's state (R26). -/
theorem timeLeftBytes_eq (now : Nat) (r : Record) :
    optionalBytes (timeLeft now r) = match r.deadline with
      | some d => twoBytes (min ((d - now) /
          (match r.state with | .waiting => 10000 | .settling => 10 | .yielding => 1000 | .held => 1)) (r.span - 1))
      | none => [] := by
  rw [optionalBytes_eq, timeLeft]
  cases r.deadline with
  | none => rfl
  | some d => cases r.state <;> rfl

/-- The flags of the report: preempt, eligible, wait limit, deadline (R25). -/
theorem queryFlags_eq (s : State) (i : SlotId) (r : Record) :
    flagBit r.preempt 0 ||| flagBit (r.state == .waiting && r.preempt && s.eligible.contains i) 1
        ||| flagBit r.waitLimit.isSome 2 ||| flagBit r.deadline.isSome 3
      = (if r.preempt then 1#8 else 0#8)
        ||| (if r.state = .waiting ∧ r.preempt = true ∧ i ∈ s.eligible then 2#8 else 0#8)
        ||| (if r.waitLimit.isSome then 4#8 else 0#8) ||| (if r.deadline.isSome then 8#8 else 0#8) := by
  have heligible : (r.state == .waiting && r.preempt && s.eligible.contains i) = true
      ↔ r.state = .waiting ∧ r.preempt = true ∧ i ∈ s.eligible := by
    simp [and_assoc]
  simp only [flagBit, heligible]
  rfl

/-- A QUERY CLAIM of a ticket its issuer has a record of reports that record (R25). -/
theorem handleQueryClaim_of_owns {s : State} {n : HostId} {q : Request} {tk : Byte} {i : SlotId} {r : Record}
    (hpayload : q.payload = [tk]) (htk : tk ≠ 0#8) (howns : s.owns n tk i r) :
    handleQueryClaim s n q = (s, { status := .ok, payload := queryClaimPayload s i r }) := by
  simp only [handleQueryClaim, hpayload, ticketArg, if_neg htk, State.findTicket_of_owns howns]

/-- Settles O30, field by field of the report. -/
theorem queryClaimReports : Obligations.QueryClaimReports := by
  intro s dt n q tk i r htakes hpayload htk howns hlines hdistinct
  have hturn : (s.turn dt .queryClaim n).owns n tk i r := howns
  obtain ⟨hr, -, hticket, -⟩ := howns
  refine ⟨_, positionOf s.slots i r, parkedPositions s r, rfl, fun hwaiting => positionOf_standsAt hr hwaiting
    (fun j w hw heq => hdistinct j w hw i r hr heq) hlines,
    fun x => ?_, ?_⟩
  · refine (has_bitsWhere _ x).trans ?_
    cases r.lines[x.val]? with
    | none => rfl
    | some e => cases r.state <;> rfl
  · have hreport := State.takeChosen_onlyAnswers htakes dt (handleQueryClaim_of_owns hpayload htk hturn)
    rw [queryClaimPayload, RecState.code_eq, queryFlags_eq, optionalBytes_eq, timeLeftBytes_eq, entryBytes_eq, hticket] at hreport
    exact hreport

end Sys2Proof.Machine
end

section
/-! SUPPORT. SET LEVELS, RECONFIGURE and CLEAR FAULT accepted (R83 to R86): what a new setting does to record and cell. -/

namespace Sys2Proof.Machine

/-! ## A setting put in a record and in a cell -/

/-- The lines of a record with their settings edited, read by position (R3). -/
theorem editEntries_eq (r : Record) (f : Nat → Setting → Setting) : editEntries f r.lines = r.linesWith f := by
  have hpositions : (editEntries f r.lines).map some
      = (List.range r.lines.length).map fun p => (r.entryAt p).map fun e => { e with setting := f p e.setting } := by
    refine List.ext_getElem (by simp [editEntries]) fun p hp _ => ?_
    have hp' : p < r.lines.length := by simpa [editEntries] using hp
    simp [editEntries, Record.entryAt, hp']
  have hfilter := congrArg (List.filterMap id) hpositions
  rw [List.filterMap_map, List.filterMap_map] at hfilter
  simpa [Record.linesWith] using hfilter

/-- The cells of a HELD or YIELDING record's lines present its settings (R69). -/
theorem State.cellsMatch.presents {s : State} {i : SlotId} {r : Record} (h : s.cellsMatch i r)
    (hstate : r.state = .held ∨ r.state = .yielding) {e : LineEntry} (he : e ∈ r.lines) :
    ∃ x ∈ (s.cells.get e.line).holder, x.state = .held ∨ x.state = .yielding :=
  ⟨_, (h.2 e he).1, hstate⟩

/-- An unparked cell with a claim that presents shows its applied setting (R71). -/
theorem Cell.shown_of_applied {c : Cell} {st : Setting} (hholder : ∃ x ∈ c.holder, x.state = .held ∨ x.state = .yielding)
    (happlied : c.applied = some st) (hparked : c.parked = false) (rest : Rest) : c.shown rest = st.pin := by
  have hclaimed : c.claimed = some st := (Cell.claimed_eq_some c st).mpr ⟨hholder, happlied⟩
  rw [Cell.shown, hclaimed, hparked, ← presentedOf_eq]
  rfl

/-- An unparked cell with a claim that presents takes its drive anew: presented at once, and blanking (R71, R84 to R86). -/
theorem Cell.present_blank {c : Cell} {st : Setting} (hholder : ∃ x ∈ c.holder, x.state = .held ∨ x.state = .yielding)
    (happlied : c.applied = some st) (hparked : c.parked = false) (rest : Rest) (now : Nat) :
    (c.blank now).present rest = { c with presented := st.pin, blanking := some (now + 16) } := by
  have hshown : (c.blank now).shown rest = st.pin := Cell.shown_of_applied hholder happlied hparked rest
  rw [Cell.present, hshown]
  rfl

/-- What a cell does with a new setting (R71, R84, R85). -/
theorem Cell.adopt_retunes {c : Cell} (hholder : ∃ x ∈ c.holder, x.state = .held ∨ x.state = .yielding) (st : Setting)
    (rest : Rest) (now : Nat) : c.retunes (c.adopt st rest now) st now := by
  cases happlied : c.applied with
  | none => exact .inl ⟨happlied, by simp only [Cell.adopt, happlied]⟩
  | some old =>
    refine .inr ⟨old, happlied, ?_⟩
    have hdrive : Setting.driveOf old = Setting.driveOf st ↔ old.mode = st.mode ∧ effectiveLevel old = effectiveLevel st :=
      Prod.mk_inj
    simp only [Cell.adopt, happlied, hdrive]
    by_cases hparked : c.parked = true
    · rw [if_pos (Or.inl hparked), if_pos hparked]
    · rw [if_neg hparked]
      by_cases hsame : old.mode = st.mode ∧ effectiveLevel old = effectiveLevel st
      · rw [if_pos hsame, if_pos (Or.inr hsame)]
      · rw [if_neg hsame, if_neg (not_or.mpr ⟨hparked, hsame⟩)]
        exact Cell.present_blank (c := { c with applied := some st }) hholder rfl (by simpa using hparked) rest now

/-- The cells of the lines whose settings a request replaces (R84, R85). -/
theorem State.resettle_retunes {s : State} {i : SlotId} {r : Record} (hmatch : s.cellsMatch i r)
    (hstate : r.state = .held ∨ r.state = .yielding) (named : Nat → Bool) (f : Nat → Setting → Setting) {x : LineEntry × Nat}
    (hx : x ∈ r.lines.zipIdx) :
    if named x.2 = true then
      (s.cells.get x.1.line).retunes ((s.resettle i r named f).cells.get x.1.line) (f x.2 x.1.setting) s.now
    else (s.resettle i r named f).cells.get x.1.line = s.cells.get x.1.line := by
  obtain ⟨e, p⟩ := x
  rw [State.resettle_cell named f hmatch.1 hx]
  split
  next =>
    exact Cell.adopt_retunes (hmatch.presents hstate (List.mem_of_getElem? (List.mem_zipIdx_iff_getElem?.mp hx))) _ _ _
  next => rfl

/-- The record whose settings a request replaces (R84, R85). -/
theorem State.resettle_slot (s : State) (i : SlotId) (r : Record) (named : Nat → Bool) (f : Nat → Setting → Setting) :
    (s.resettle i r named f).slots.get i = some { r with lines := r.linesWith f } := by
  rw [← editEntries_eq]
  exact Table.get_set_self _ _ _

/-! ## SET LEVELS -/

/-- SET LEVELS that passes the checks (R83, R84). -/
theorem handleSetLevels_of_passes {s : State} {n : HostId} {q : Request} {tk ps ls : Byte} {i : SlotId} {r : Record}
    (hpayload : q.payload = [tk, ps, ls]) (htk : tk ≠ 0#8) (hps : ps ≠ 0#8) (howns : s.owns n tk i r)
    (hbelow : ps.toNat < 2 ^ r.lines.length) (hstate : r.state = .held ∨ r.state = .yielding)
    (hlines : ∀ x ∈ r.lines.zipIdx, ps.getLsbD x.2 = true →
      (x.1.setting.mode = .openDrain ∨ x.1.setting.mode = .pushPull) ∧ (s.cells.get x.1.line).parked = false) :
    handleSetLevels s n q =
      (s.resettle i r (positionIn ps) fun p st => if positionIn ps p then { st with level := positionIn ls p } else st,
        { status := .ok, payload := [tk] }) := by
  have hinput : (linesAt r fun p e => positionIn ps p && isInputMode e.setting.mode) = [] := by
    refine linesAt_eq_nil fun l hl => ?_
    obtain ⟨x, hx, hbits, -⟩ := (mem_linesAt r _ l).mp hl
    obtain ⟨hnamed, hmode⟩ := Bool.and_eq_true_iff.mp hbits
    rcases (hlines x hx hnamed).1 with h | h <;> simp [h, isInputMode] at hmode
  have hparked : (linesAt r fun p e => positionIn ps p && (s.cells.get e.line).parked) = [] := by
    refine linesAt_eq_nil fun l hl => ?_
    obtain ⟨x, hx, hbits, -⟩ := (mem_linesAt r _ l).mp hl
    obtain ⟨hnamed, hpark⟩ := Bool.and_eq_true_iff.mp hbits
    exact Bool.false_ne_true ((hlines x hx hnamed).2.symm.trans hpark)
  have hargs : levelArgs q.payload = some { ticket := tk, positions := ps, levels := ls } := by
    simp [levelArgs, hpayload, htk, hps]
  simp only [handleSetLevels, hargs, State.findTicket_of_owns howns, positionsBelow, hbelow, decide_true, if_true,
    (presenting_iff r).mpr hstate, State.applyLevels, hinput, hparked]

/-- Settles O35, by what a new setting does to record and cells. -/
theorem setLevelsMovesTheLevels : Obligations.SetLevelsMovesTheLevels := by
  intro s dt n q tk ps ls i r htakes hpayload htk hps howns hbelow hstate hmatch hlines
  refine ⟨_, congrArg Host.Outcome.next (State.takeChosen_of_handled htakes dt
    (handleSetLevels_of_passes (s := s.turn dt .setLevels n) hpayload htk hps howns hbelow hstate hlines)), rfl,
    State.resettle_slot (s.turn dt .setLevels n) i r (positionIn ps) _, fun j hj => Table.get_set_ne _ _ hj, fun x hx => ?_,
    fun l hl => ?_, posts_reply rfl n q rfl⟩
  · have hcell := State.resettle_retunes (s := s.turn dt .setLevels n) hmatch hstate (positionIn ps)
      (fun p st => if positionIn ps p then { st with level := positionIn ls p } else st) hx
    by_cases hnamed : ps.getLsbD x.2 = true
    · simp only [positionIn, hnamed, if_true] at hcell
      rw [if_pos hnamed]
      exact hcell
    · rw [if_neg hnamed]
      exact (if_neg hnamed).mp hcell
  · exact State.resettle_cell_ne _ _ hl

/-! ## CLEAR FAULT -/

/-- Distinct lines stand at distinct positions (R3). -/
theorem zipIdx_inj {es : List LineEntry} (hlines : (es.map fun e => e.line).Nodup) {x y : LineEntry × Nat} (hx : x ∈ es.zipIdx)
    (hy : y ∈ es.zipIdx) (h : x.1.line = y.1.line) : x = y := by
  have hfound := find_zipIdx_of_mem hlines hx
  rw [h, find_zipIdx_of_mem hlines hy] at hfound
  exact (Option.some.inj hfound).symm

/-- Whether the line at a position is among the lines at positions of a kind (R3). -/
theorem contains_linesAt {r : Record} (hlines : (r.lines.map fun e => e.line).Nodup) {x : LineEntry × Nat}
    (hx : x ∈ r.lines.zipIdx) (p : Nat → Bool) : (linesAt r fun k _ => p k).contains x.1.line = p x.2 := by
  rw [Bool.eq_iff_iff, List.contains_iff_mem, mem_linesAt]
  constructor
  · rintro ⟨y, hy, hp, hline⟩
    rw [← zipIdx_inj hlines hy hx hline]
    exact hp
  · exact fun hp => ⟨x, hx, hp, rfl⟩

/-- CLEAR FAULT that passes the checks (R83, R86). -/
theorem handleClearFault_of_passes {s : State} {n : HostId} {q : Request} {tk : Byte} {ps : Option Byte} {i : SlotId} {r : Record}
    (hargs : clearFaultArgs q.payload = some (tk, ps)) (howns : s.owns n tk i r)
    (hbelow : ∀ w ∈ ps, w.toNat < 2 ^ r.lines.length) (hstate : r.state = .held ∨ r.state = .yielding) :
    handleClearFault s n q =
      (s.unparkLines r (clearedPositions s r ps), { status := .ok, payload := [tk, clearedPositions s r ps] }) := by
  have hall : (ps.all fun w => positionsBelow w r.lines.length) = true := by
    cases ps with
    | none => rfl
    | some w => exact decide_eq_true (hbelow w rfl)
  simp only [handleClearFault, hargs, State.findTicket_of_owns howns, hall, if_true, (presenting_iff r).mpr hstate]

/-- The positions a CLEAR FAULT on a HELD or YIELDING record acts on (R86). -/
theorem getLsbD_clearedPositions {s : State} {r : Record} (hstate : r.state = .held ∨ r.state = .yielding) (ps : Option Byte)
    (x : Fin 8) : (clearedPositions s r ps).getLsbD x.val =
      match r.lines[x.val]? with
      | some e => (ps.getD 0xFF#8).getLsbD x.val && (s.cells.get e.line).parked
      | none => false := by
  have hparked : (parkedPositions s r).getLsbD x.val = _ := has_bitsWhere _ x
  have hpresenting : (r.state == .held || r.state == .yielding) = true := (presenting_iff r).mpr hstate
  rw [clearedPositions, BitVec.getLsbD_and, hparked]
  cases r.lines[x.val]? with
  | none => exact Bool.false_and _
  | some e => simp only [hpresenting, Bool.true_and, Bool.and_comm]

/-- The cell of a line a CLEAR FAULT finds at a position (R86). -/
theorem State.unparkLines_cell {s : State} {i : SlotId} {r : Record} (hmatch : s.cellsMatch i r)
    (hstate : r.state = .held ∨ r.state = .yielding) (ps : Byte) {x : LineEntry × Nat} (hx : x ∈ r.lines.zipIdx) :
    (s.unparkLines r ps).cells.get x.1.line =
      if ps.getLsbD x.2 then
        { s.cells.get x.1.line with parked := false, presented := x.1.setting.pin, blanking := some (s.now + 16) }
      else s.cells.get x.1.line := by
  have he : x.1 ∈ r.lines := List.mem_of_getElem? (List.mem_zipIdx_iff_getElem?.mp hx)
  have hunpark (rest : Rest) : (s.cells.get x.1.line).unpark rest s.now = _ :=
    Cell.present_blank (c := { s.cells.get x.1.line with parked := false }) (hmatch.presents hstate he)
      (hmatch.2 _ he).2 rfl rest s.now
  simp only [State.unparkLines, State.mapCells_cells, Table.get_ofFn, contains_linesAt hmatch.1 hx, hunpark, positionIn]

/-- A line the record does not name is not touched (R86). -/
theorem State.unparkLines_cell_ne {s : State} {r : Record} (ps : Byte) {l : LineId} (hl : r.names l = false) :
    (s.unparkLines r ps).cells.get l = s.cells.get l := by
  have hnot : (linesAt r fun p _ => positionIn ps p).contains l = false := by
    rw [Bool.eq_false_iff, ne_eq, List.contains_iff_mem, mem_linesAt]
    rintro ⟨x, hx, -, hline⟩
    exact absurd ((Record.names_iff r l).mpr ⟨x.1, List.mem_of_getElem? (List.mem_zipIdx_iff_getElem?.mp hx), hline⟩)
      (by simp [hl])
  simp only [State.unparkLines, State.mapCells_cells, Table.get_ofFn, hnot, Bool.false_eq_true, if_false]

/-- Settles O37, by what unparking does to a cell. -/
theorem clearFaultUnparks : Obligations.ClearFaultUnparks := by
  intro s dt n q tk ps i r htakes htk howns hpayload hstate hmatch _
  obtain ⟨op, hargs, hbelow, hps⟩ : ∃ op : Option Byte, clearFaultArgs q.payload = some (tk, op)
      ∧ (∀ w ∈ op, w.toNat < 2 ^ r.lines.length) ∧ op.getD 0xFF#8 = ps := by
    rcases hpayload with ⟨hpayload, rfl⟩ | ⟨hpayload, hne, hbelow⟩
    · exact ⟨none, by simp [hpayload, clearFaultArgs, htk], fun w hw => (by cases hw), rfl⟩
    · exact ⟨some ps, by simp [hpayload, clearFaultArgs, htk, hne], fun w hw => Option.some.inj hw ▸ hbelow, rfl⟩
  refine ⟨_, clearedPositions (s.turn dt .clearFault n) r op, congrArg Host.Outcome.next (State.takeChosen_of_handled htakes dt
    (handleClearFault_of_passes (s := s.turn dt .clearFault n) hargs howns hbelow hstate)), rfl, fun x => ?_, fun x hx => ?_,
    fun l hl => State.unparkLines_cell_ne _ hl, posts_reply rfl n q rfl⟩
  · rw [getLsbD_clearedPositions hstate, hps]
    rfl
  · exact State.unparkLines_cell (s := s.turn dt .clearFault n) hmatch hstate _ hx

/-! ## RECONFIGURE -/

/-- The settings a RECONFIGURE names, by position (R85). -/
def namedBy (ps : List (Byte × Setting)) : List (Nat × Setting) := ps.map fun x => (x.1.toNat, x.2)

/-- The setting named for a position (R85). -/
theorem settingAt_namedBy (ps : List (Byte × Setting)) (p : Nat) :
    settingAt (namedBy ps) p = (ps.find? fun x => x.1.toNat == p).map fun x => x.2 := by
  rw [settingAt, namedBy, List.find?_map, Option.map_map]
  rfl

/-- A position is named once at most (R85). -/
theorem settingAt_eq_some {ps : List (Byte × Setting)} (hps : (ps.map fun x => x.1).Nodup) (p : Nat) (st : Setting) :
    settingAt (namedBy ps) p = some st ↔ ∃ y ∈ ps, y.1.toNat = p ∧ y.2 = st := by
  rw [settingAt_namedBy, Option.map_eq_some_iff]
  constructor
  · rintro ⟨y, hy, rfl⟩
    exact ⟨y, List.mem_of_find?_eq_some hy, by simpa using List.find?_some hy, rfl⟩
  · rintro ⟨y, hy, hpos, rfl⟩
    cases hfound : ps.find? fun x => x.1.toNat == p with
    | none => exact absurd (List.find?_eq_none.mp hfound y hy) (by simp [hpos])
    | some z =>
      have hz : z.1.toNat = p := by simpa using List.find?_some hfound
      exact ⟨z, rfl, congrArg Prod.snd (List.inj_on_of_nodup_map hps (List.mem_of_find?_eq_some hfound) hy
        (BitVec.eq_of_toNat_eq (hz.trans hpos.symm)))⟩

/-- A position not named (R85). -/
theorem settingAt_eq_none {ps : List (Byte × Setting)} {p : Nat} (h : ∀ y ∈ ps, y.1.toNat ≠ p) :
    settingAt (namedBy ps) p = none := by
  rw [settingAt_namedBy, List.find?_eq_none.mpr fun y hy => by simpa using h y hy]
  rfl

/-- Pairs of bytes sent one after another are read back as pairs (R85). -/
theorem bytePairs_flatMap (ps : List (Byte × Byte)) : bytePairs (ps.flatMap fun x => [x.1, x.2]) = some ps := by
  induction ps with
  | nil => rfl
  | cons x ps ih => simp [bytePairs, ih]

/-- A map that never fails maps every member (R85). -/
theorem mapM_eq_some_map {α β : Type} {f : α → Option β} {g : α → β} {l : List α} (h : ∀ x ∈ l, f x = some (g x)) :
    l.mapM f = some (l.map g) := by
  induction l with
  | nil => rfl
  | cons x l ih =>
    rw [List.mapM_cons, h x List.mem_cons_self, ih fun y hy => h y (List.mem_cons_of_mem _ hy)]
    rfl

/-- The named settings of pairs whose positions are distinct and exist (R85). -/
theorem namedSettings_eq {ps : List (Byte × Setting)} {count : Nat} (hps : (ps.map fun x => x.1).Nodup)
    (hbelow : ∀ x ∈ ps, x.1.toNat < count) : namedSettings count (ps.map fun x => (x.1, x.2.byte)) = some (namedBy ps) := by
  have hpositions : ((ps.map fun x => (x.1, x.2.byte)).map fun p => p.1).Nodup := by
    rw [List.map_map]
    exact hps
  rw [namedSettings, if_pos hpositions, List.mapM_map]
  exact mapM_eq_some_map fun x hx => (if_pos (hbelow x hx)).trans (congrArg (Option.map _) (setting_ofByte_byte x.2))

/-- RECONFIGURE that passes the checks (R83, R85). -/
theorem handleReconfigure_of_passes {s : State} {n : HostId} {q : Request} {tk : Byte} {ps : List (Byte × Setting)} {i : SlotId}
    {r : Record}
    (hpayload : q.payload = [tk, BitVec.ofNat 8 ps.length] ++ ps.flatMap fun x => [x.1, BitVec.ofNat 8 x.2.number])
    (htk : tk ≠ 0#8) (hlength : 1 ≤ ps.length ∧ ps.length ≤ 8) (hps : (ps.map fun x => x.1).Nodup) (howns : s.owns n tk i r)
    (hbelow : ∀ x ∈ ps, x.1.toNat < r.lines.length) (hstate : r.state = .held ∨ r.state = .yielding) :
    handleReconfigure s n q = (s.applySettings i r (namedBy ps), { status := .ok, payload := [tk] }) := by
  have hcount : (BitVec.ofNat 8 ps.length).toNat = ps.length := by
    rw [BitVec.toNat_ofNat]
    omega
  have hpairs : (ps.flatMap fun x => [x.1, BitVec.ofNat 8 x.2.number])
      = (ps.map fun x => (x.1, x.2.byte)).flatMap fun x => [x.1, x.2] := by
    simp [List.flatMap_map, setting_byte_eq]
  have hsize : (ps.flatMap fun x => [x.1, BitVec.ofNat 8 x.2.number]).length = 2 * ps.length := by
    simp [List.length_flatMap, Nat.mul_comm]
  have hargs : reconfigureArgs q.payload = some (tk, ps.map fun x => (x.1, x.2.byte)) := by
    rw [hpayload]
    simp only [List.cons_append, List.nil_append, reconfigureArgs, hcount, hsize]
    rw [if_neg (by simp only [htk, false_or]; omega), hpairs, bytePairs_flatMap]
    rfl
  simp only [handleReconfigure, hargs, State.findTicket_of_owns howns, namedSettings_eq hps hbelow, (presenting_iff r).mpr hstate,
    if_true]

/-- The lines whose watch a RECONFIGURE sets to NONE (R78, R85). -/
theorem has_unwatched {ps : List (Byte × Setting)} (hps : (ps.map fun x => x.1).Nodup) (r : Record) (l : LineId) :
    has (unwatched r (namedBy ps)) l = true
      ↔ ∃ x ∈ r.lines.zipIdx, x.1.line = l ∧ ∃ y ∈ ps, y.1.toNat = x.2 ∧ y.2.watch = .none := by
  rw [unwatched, has_bitsWhere, List.contains_iff_mem, mem_linesAt]
  refine exists_congr fun x => and_congr_right fun _ => ?_
  rw [and_comm]
  refine and_congr_right fun _ => ?_
  cases hnamed : settingAt (namedBy ps) x.2 with
  | none =>
    refine iff_of_false Bool.false_ne_true ?_
    rintro ⟨y, hy, hpos, -⟩
    rw [(settingAt_eq_some hps _ y.2).mpr ⟨y, hy, hpos, rfl⟩] at hnamed
    cases hnamed
  | some st =>
    constructor
    · intro hwatch
      obtain ⟨y, hy, hpos, rfl⟩ := (settingAt_eq_some hps _ st).mp hnamed
      exact ⟨y, hy, hpos, by simpa using hwatch⟩
    · rintro ⟨y, hy, hpos, hwatch⟩
      rw [(settingAt_eq_some hps _ y.2).mpr ⟨y, hy, hpos, rfl⟩] at hnamed
      cases hnamed
      simpa using hwatch

/-- The board whose watch sets a RECONFIGURE edits (R78, R85). -/
theorem State.applySettings_board (s : State) (i : SlotId) (r : Record) (named : List (Nat × Setting)) :
    ((s.applySettings i r named).boards.get r.owner).notices = (s.boards.get r.owner).notices
      ∧ ((s.applySettings i r named).boards.get r.owner).fault = (s.boards.get r.owner).fault
      ∧ ((s.applySettings i r named).boards.get r.owner).flags = (s.boards.get r.owner).flags
      ∧ ∀ l, has ((s.applySettings i r named).boards.get r.owner).change l
          = (has (s.boards.get r.owner).change l && !has (unwatched r named) l)
        ∧ has ((s.applySettings i r named).boards.get r.owner).overrun l
          = (has (s.boards.get r.owner).overrun l && !has (unwatched r named) l) := by
  have hboard : (s.applySettings i r named).boards.get r.owner = _ := Table.get_set_self _ _ _
  rw [hboard]
  exact ⟨rfl, rfl, rfl, fun l => ⟨by rw [← has_not, ← has_and]; rfl, by rw [← has_not, ← has_and]; rfl⟩⟩

/-- Settles O36, by what a new setting does to record and cells, and by the lines it takes out of watch. -/
theorem reconfigureReplacesSettings : Obligations.ReconfigureReplacesSettings := by
  intro s dt n q tk ps i r htakes hpayload htk hlength hps howns hbelow hstate hmatch
  have hhandled := handleReconfigure_of_passes (s := s.turn dt .reconfigure n) hpayload htk hlength hps howns hbelow hstate
  obtain ⟨-, rfl, -⟩ := howns
  have hcell {x : LineEntry × Nat} (hx : x ∈ r.lines.zipIdx) :=
    State.resettle_retunes (s := s.turn dt .reconfigure r.owner) hmatch hstate
      (fun p => (settingAt (namedBy ps) p).isSome) (fun p st => (settingAt (namedBy ps) p).getD st) hx
  obtain ⟨hnotices, hfault, hflags, hsets⟩ := (s.turn dt .reconfigure r.owner).applySettings_board i r (namedBy ps)
  refine ⟨_, congrArg Host.Outcome.next (State.takeChosen_of_handled htakes dt hhandled), rfl, ?_,
    fun j hj => Table.get_set_ne _ _ hj, fun x hx => ⟨fun y hy hpos => ?_, fun hnot => ?_⟩,
    fun l hl => State.resettle_cell_ne (s := s.turn dt .reconfigure r.owner) (i := i)
      (fun p => (settingAt (namedBy ps) p).isSome)
      (fun p st => (settingAt (namedBy ps) p).getD st) hl, fun h hh => Table.get_set_ne _ _ hh,
    hnotices, hfault, hflags, fun l => ?_, posts_reply rfl r.owner q rfl⟩
  · simp only [← settingAt_namedBy]
    exact State.resettle_slot (s.turn dt .reconfigure r.owner) i r (fun p => (settingAt (namedBy ps) p).isSome) _
  · have := hcell hx
    simp only [(settingAt_eq_some hps _ y.2).mpr ⟨y, hy, hpos, rfl⟩, Option.isSome_some, if_true, Option.getD_some] at this
    exact this
  · have := hcell hx
    simp only [settingAt_eq_none hnot, Option.isSome_none, Bool.false_eq_true, if_false] at this
    exact this
  · obtain ⟨hchange, hoverrun⟩ := hsets l
    simp only [← has_unwatched hps r l, State.reply_boards, hchange, hoverrun]
    cases has (unwatched r (namedBy ps)) l with
    | true => exact ⟨Bool.and_false _, Bool.and_false _⟩
    | false => exact ⟨Bool.and_true _, Bool.and_true _⟩

end Sys2Proof.Machine
end

section
/-! SUPPORT. SETTLE_END (R45, R48, R54): the cells and the boards when a record leaves SETTLING. -/

namespace Sys2Proof.Machine

/-! ## A run that moves no record -/

/-- A run after which every slot is as it was has moved no record. -/
theorem TableRun.eq_nil {cause : FreeCause} {s t : State} {m : List SlotId} (h : TableRun cause s m t)
    (hslots : ∀ j, t.slots.get j = s.slots.get j) : m = [] := by
  rw [List.eq_nil_iff_forall_not_mem]
  intro j hj
  obtain ⟨r, hr, hmoved⟩ := h.moved hj
  rw [hslots j, hr] at hmoved
  exact hmoved.ne

/-- An eligibility evaluation after which every slot is as it was has told no cell and no board (R51). -/
theorem State.eligibility_of_slots {s : State} (hslots : ∀ j, s.eligibility.slots.get j = s.slots.get j) :
    s.eligibility.cells = s.cells ∧ s.eligibility.boards = s.boards := by
  obtain ⟨m, hrun⟩ := State.eligibility_run_self .released s
  obtain rfl := hrun.eq_nil hslots
  exact ⟨Table.ext_get fun l => hrun.cell_ne fun _ hi => (by cases hi),
    Table.ext_get fun h => hrun.board_ne fun _ hi => (by cases hi)⟩

/-! ## Entry to HELD, and from there to YIELDING -/

/-- A record that enters HELD has its settings applied to its lines, which blank from there (R45, R73). -/
theorem State.enterHeld_applies (s : State) (i : SlotId) {r : Record} (hlines : (r.lines.map fun e => e.line).Nodup)
    {e : LineEntry} (he : e ∈ r.lines) :
    (s.enterHeld i r).applies e.line { slot := i, owner := r.owner, ticket := r.ticket, state := .held } e.setting s.now := by
  have hset : r.asHeld.settingOf e.line = some e.setting := Record.settingOf_of_mem (r := r) hlines he
  have hcell : (s.enterHeld i r).cells.get e.line =
      ((s.cells.get e.line).hold (r.asHeld.holder i) e.setting s.now).present (s.restOf e.line) := by
    simp only [State.enterHeld, State.reportHeld, State.mapCells_cells, Table.get_ofFn, hset]
    rfl
  have hshown := Cell.shown_of_applied (c := (s.cells.get e.line).hold (r.asHeld.holder i) e.setting s.now) ⟨_, rfl, .inl rfl⟩ rfl
    rfl (s.restOf e.line)
  unfold State.applies
  rw [hcell]
  exact ⟨rfl, rfl, rfl, hshown, rfl⟩

/-- A record that enters HELD reaches no other line (R45). -/
theorem State.enterHeld_cell_ne (s : State) (i : SlotId) {r : Record} {l : LineId} (hl : r.names l = false) :
    (s.enterHeld i r).cells.get l = s.cells.get l := by
  have hset : r.asHeld.settingOf l = none := by
    rw [← Option.isNone_iff_eq_none, ← Option.not_isSome, Record.settingOf_isSome, Bool.not_eq_true']
    exact hl
  simp only [State.enterHeld, State.reportHeld, State.mapCells_cells, Table.get_ofFn, hset]
  rfl

/-- A record that passes to YIELDING keeps what its lines apply (R73). -/
theorem State.enterYielding_applies {s : State} (i : SlotId) {r : Record} {l : LineId} {x : Holder} {st : Setting} {moment : Nat}
    (hl : r.names l = true) (h : s.applies l x st moment) :
    (s.enterYielding i r).applies l { x with state := .yielding } st moment := by
  obtain ⟨hholder, happlied, hparked, -, hblanking⟩ := h
  have hcell : (s.enterYielding i r).cells.get l = ((s.cells.get l).pass .yielding).present (s.restOf l) := by
    simp only [State.enterYielding, State.post_cells, State.reportPass, State.mapCells_cells, Table.get_ofFn, if_pos hl]
    rfl
  have hpassed : ((s.cells.get l).pass .yielding).holder = some { x with state := .yielding } := by
    rw [Cell.pass, hholder]
    rfl
  unfold State.applies
  rw [hcell]
  exact ⟨hpassed, happlied, hparked, Cell.shown_of_applied ⟨_, hpassed, .inr rfl⟩ happlied hparked _, hblanking⟩

/-- A record that passes to YIELDING reaches no other line (R73). -/
theorem State.enterYielding_cell_ne (s : State) (i : SlotId) {r : Record} {l : LineId} (hl : r.names l = false) :
    (s.enterYielding i r).cells.get l = s.cells.get l := by
  simp only [State.enterYielding, State.post_cells, State.reportPass, State.mapCells_cells, Table.get_ofFn, hl, Bool.false_eq_true,
    if_false]
  rfl

/-! ## The settle end -/

/-- The table after a settle end no preemptor stands against: the eligibility evaluation moves no record (R45, R51). -/
theorem State.settleEnd_unfaced {s : State} (hdistinct : s.entriesDistinct) (hyields : s.yieldsRight) {i : SlotId} {r : Record}
    (hr : s.slots.get i = some r) (hstate : r.state = .settling) (hd : demanded s.slots s.eligible r = false) :
    (s.settleEnd i r).cells = (s.enterHeld i r).cells
      ∧ (s.settleEnd i r).boards = (s.post r.owner r.ticket .granted).boards := by
  have hsettled : s.settleEnd i r = ((s.enterHeld i r).post r.owner r.ticket .granted).eligibility := by
    rw [State.settleEnd, hd]
    rfl
  have hslots (j : SlotId) : ((s.enterHeld i r).post r.owner r.ticket .granted).eligibility.slots.get j
      = ((s.enterHeld i r).post r.owner r.ticket .granted).slots.get j := by
    rw [← hsettled, State.settleEnd_slots_right hdistinct hyields hr hstate, hd]
    exact (Table.get_set _ _ _ _).symm
  obtain ⟨hcells, hboards⟩ := State.eligibility_of_slots hslots
  rw [hsettled, hcells, hboards]
  exact ⟨rfl, rfl⟩

/-- The cells after a settle end (R45, R54). -/
theorem State.settleEnd_cells {s : State} (hdistinct : s.entriesDistinct) (hyields : s.yieldsRight) {i : SlotId} {r : Record}
    (hr : s.slots.get i = some r) (hstate : r.state = .settling) (hlines : (r.lines.map fun e => e.line).Nodup) :
    (∀ e ∈ r.lines, (s.settleEnd i r).applies e.line
        { slot := i, owner := r.owner, ticket := r.ticket, state := if demanded s.slots s.eligible r then .yielding else .held }
        e.setting s.now)
      ∧ ∀ l, r.names l = false → (s.settleEnd i r).cells.get l = s.cells.get l := by
  cases hd : demanded s.slots s.eligible r with
  | true =>
    have hsettled : s.settleEnd i r = (s.enterHeld i r).enterYielding i r.asHeld := if_pos hd
    rw [hsettled]
    exact ⟨fun e he => State.enterYielding_applies i ((Record.names_iff _ _).mpr ⟨e, he, rfl⟩) (s.enterHeld_applies i hlines he),
      fun l hl => ((s.enterHeld i r).enterYielding_cell_ne i hl).trans (s.enterHeld_cell_ne i hl)⟩
  | false =>
    unfold State.applies
    rw [(State.settleEnd_unfaced hdistinct hyields hr hstate hd).1]
    exact ⟨fun e he => s.enterHeld_applies i hlines he, fun l hl => s.enterHeld_cell_ne i hl⟩

/-- The boards after a settle end: one notice is posted (R48, R54). -/
theorem State.settleEnd_boards {s : State} (hdistinct : s.entriesDistinct) (hyields : s.yieldsRight) {i : SlotId} {r : Record}
    (hr : s.slots.get i = some r) (hstate : r.state = .settling) :
    (s.settleEnd i r).boards =
      (s.post r.owner r.ticket (if demanded s.slots s.eligible r then .revokeNotice else .granted)).boards := by
  cases hd : demanded s.slots s.eligible r with
  | true =>
    have hsettled : s.settleEnd i r = (s.enterHeld i r).enterYielding i r.asHeld := if_pos hd
    rw [hsettled]
    rfl
  | false => exact (State.settleEnd_unfaced hdistinct hyields hr hstate hd).2

/-- A notice posted for a record that changes leaves all else on the boards (R107, R108). -/
theorem boardStands_of_post {s t : State} {i : SlotId} {r : Record} {k : NoticeKind} (hr : s.slots.get i = some r)
    (hchanged : t.slots.get i ≠ some r) (hboards : t.boards = (s.post r.owner r.ticket k).boards) :
    t.noticeOf r.owner r.ticket = some k ∧ boardStands s t r.owner ∧ ∀ h, h ≠ r.owner → t.boards.get h = s.boards.get h := by
  have hself : t.boards.get r.owner = _ := (congrArg (·.get r.owner) hboards).trans (Table.get_set_self _ _ _)
  have hnotices : (t.boards.get r.owner).notices = postNotice r.ticket k (s.boards.get r.owner).notices := by rw [hself]; rfl
  refine ⟨?_, ⟨by rw [hself]; rfl, fun l _ => by rw [hself]; exact ⟨rfl, rfl, rfl⟩, fun tk htk => ?_⟩, fun h hh => ?_⟩
  · rw [State.noticeOf_eq, hnotices, noticeIn_postNotice_self]
  · rw [State.noticeOf_eq, hnotices, State.noticeOf_eq]
    exact noticeIn_postNotice_ne (fun heq => hchanged (htk i r hr rfl heq.symm)) _ _
  · rw [hboards]
    exact Table.get_set_ne _ _ hh

/-- Settles O31, by what a settle end does to slots, cells and boards. -/
theorem settleEndBringsTheClaim : Obligations.SettleEndBringsTheClaim := by
  intro s i r d faced hresetn hrec hstate hdeadline hdistinct hyields hlines hfaced
  have hd : demanded s.slots s.eligible r = faced :=
    Bool.eq_iff_iff.mpr ((State.demanded_iff_faces hyields.1 r).trans hfaced.symm)
  have hslots := State.settleEnd_slots_right (s := s.reach d) hdistinct hyields hrec hstate
  have hboards := State.settleEnd_boards (s := s.reach d) hdistinct hyields hrec hstate
  obtain ⟨happlies, hcells⟩ := State.settleEnd_cells (s := s.reach d) hdistinct hyields hrec hstate hlines
  have htable := tableOnly.settleEnd (s.reach d) i r
  have hstep : exec (.settleEnd i) s = .next ((s.reach d).settleEnd i r) := by
    simp only [exec, execSettleEnd, hresetn, hrec, hstate, hdeadline]
  have hd' : demanded (s.reach d).slots (s.reach d).eligible r = faced := hd
  rw [hd'] at hslots hboards happlies
  have hself := (hslots i).trans (if_pos rfl)
  have hchanged : ((s.reach d).settleEnd i r).slots.get i ≠ some r := by
    rw [hself]
    intro heq
    have hstates := congrArg Record.state (Option.some.inj heq)
    rw [hstate] at hstates
    cases faced <;> cases hstates
  obtain ⟨hnotice, hstands, hothers⟩ := boardStands_of_post (s := s.reach d) hrec hchanged hboards
  exact ⟨_, hstep, htable.1, hself, fun j hj => (hslots j).trans (if_neg hj), happlies, hcells, htable.2,
    hnotice, hstands, hothers⟩

end Sys2Proof.Machine
end

section
/-! SUPPORT. CLAIM admitted (R21, R22): what the birth of a record and the run after it leave. -/

namespace Sys2Proof.Machine

/-! ## The lines of a claim -/

/-- A CLAIM that is read names a line (R16). -/
theorem entries_ne_nil_of_claimArgs {p : List Byte} {a : ClaimArgs} (h : claimArgs p = some a) : a.entries ≠ [] := by
  rw [claimArgs_eq] at h
  split at h
  · cases h
  unfold claimFields at h
  split at h
  · cases h
  next hfixed =>
    obtain ⟨-, hzero, -, hlength, -⟩ := by simpa only [not_or, ne_eq, not_not] using hfixed
    split at h
    · cases h
    next entries hread =>
      have hcount := (lineEntries_spells hread).1
      split at h
      · obtain rfl := Option.some.inj h
        obtain ⟨e, he⟩ := List.exists_mem_of_length_pos (l := entries) (by omega)
        exact List.ne_nil_of_mem ((mem_sortEntries entries e).mpr he)
      · cases h

/-! ## The birth of a record -/

/-- The state in which the evaluation of an admitted claim starts: record `r` has been made in a FREE slot, and the cells of
its lines know it where it is live. -/
structure Birth (s u : State) (i : SlotId) (r : Record) : Prop where
  free : s.slots.get i = none
  slots : u.slots = s.slots.set i (some r)
  boards : u.boards = s.boards
  cells : ∀ l, (r.state ≠ .waiting → r.names l = false) → u.cells.get l = s.cells.get l
  idle : r.state ≠ .waiting → ∀ l, r.names l = true → ¬ s.lineHeld l

/-- A claim granted at once (R21). -/
theorem Birth.claims {s : State} {n : HostId} {a : ClaimArgs} {i : SlotId} (hfree : s.lowestFree i)
    (hgrant : s.grantsArrival n a) : Birth s (s.grantInto i (newRecord s n a)) i ((newRecord s n a).granted s.now s.profile.settle) where
  free := hfree.1
  slots := s.grantInto_slots i _
  boards := by
    unfold State.grantInto
    split <;> rfl
  cells l hl := s.grantInto_cell_ne i (by simpa using hl (Record.granted_live _ _ _))
  idle _ l hl := (hgrant l (((newRecord s n a).names_iff l).mp (by rwa [Record.granted_names] at hl))).1

/-- A claim queued (R21). -/
theorem Birth.queues {s : State} {n : HostId} {a : ClaimArgs} {i : SlotId} (hfree : s.lowestFree i) :
    Birth s (s.putRecord i (newRecord s n a)) i (newRecord s n a) where
  free := hfree.1
  slots := rfl
  boards := rfl
  cells _ _ := rfl
  idle hlive := absurd rfl hlive

section

variable {s u t : State} {i : SlotId} {r : Record} {cause : FreeCause} {m : List SlotId}

/-- Every other slot is as it was. -/
theorem Birth.slot_ne (h : Birth s u i r) {j : SlotId} (hj : j ≠ i) : u.slots.get j = s.slots.get j := by
  rw [h.slots]
  exact Table.get_set_ne _ _ hj

/-- The slot of the new record. -/
theorem Birth.slot_self (h : Birth s u i r) : u.slots.get i = some r := by
  rw [h.slots]
  exact Table.get_set_self _ _ _

/-- Records stand through a birth. -/
theorem Birth.stands (h : Birth s u i r) {j : SlotId} {w : Record} (hw : s.slots.get j = some w) : u.slots.get j = some w := by
  rw [h.slot_ne]
  · exact hw
  · rintro rfl
    rw [h.free] at hw
    cases hw

/-- Where the new record stays as it was made, a run moves older records alone. -/
theorem Birth.older (h : Birth s u i r) (hrun : TableRun cause u m t) (hstill : t.slots.get i = some r) {j : SlotId}
    (hj : j ∈ m) : j ≠ i ∧ u.slots.get j = s.slots.get j := by
  have hne : j ≠ i := by
    rintro rfl
    exact hrun.not_mem_of_stands h.slot_self hstill hj
  exact ⟨hne, h.slot_ne hne⟩

/-- The boards a birth and the run after it leave (R107). -/
theorem Birth.otherBoardsFollow (h : Birth s u i r) (hrun : TableRun cause u m t) (hstill : t.slots.get i = some r) (n : HostId) :
    otherBoardsFollow s t n := by
  intro k _ hstands
  rw [← h.boards]
  refine hrun.board_of_stands fun j w hw howner => ?_
  by_cases hj : j = i
  · subst hj
    rw [h.slot_self] at hw
    exact hstill.trans hw
  · exact hstands j w ((h.slot_ne hj).symm.trans hw) howner

/-- What a birth and the run after it leave on every board (R107, R108, R112). -/
theorem Birth.boardStands (h : Birth s u i r) (hrun : TableRun cause u m t) (hstill : t.slots.get i = some r) (n : HostId) :
    boardStands s t n := by
  refine ⟨by rw [hrun.flags n, h.boards], fun l hl => ?_, fun tk htk => ?_⟩
  · rw [← h.boards]
    refine hrun.lineFlags n fun j hj w hw howner hnames => ?_
    exact hl j w ((h.older hrun hstill hj).2.symm.trans hw) howner hnames
  · rw [State.noticeOf_eq, State.noticeOf_eq, ← h.boards]
    refine hrun.notice_ne fun j hj w hw howner hticket => ?_
    exact hrun.not_mem_of_stands hw (htk j w ((h.older hrun hstill hj).2.symm.trans hw) howner hticket) hj

/-- The cells of lines whose holder stands carry on through a birth and the run after it (R73). -/
theorem Birth.cellsStand (h : Birth s u i r) (hrun : TableRun cause u m t) (hstill : t.slots.get i = some r) : cellsStand s t := by
  intro l hl
  rcases hl with ⟨k, w, hw, hlive, hnames, ht, halone⟩ | ⟨hidle, hidle'⟩
  · have hnot : r.state ≠ .waiting → r.names l = false := fun hr => by
      rw [Bool.eq_false_iff]
      exact fun hrl => h.idle hr l hrl ⟨k, w, hw, hlive, hnames⟩
    refine (hrun.cellsStand l (.inl ⟨k, w, h.stands hw, hlive, hnames, ht, fun j x hx hjk hxlive => ?_⟩)).trans (h.cells l hnot)
    by_cases hj : j = i
    · subst hj
      obtain rfl := Option.some.inj (h.slot_self.symm.trans hx)
      exact hnot hxlive
    · exact halone j x ((h.slot_ne hj).symm.trans hx) hjk hxlive
  · have hnot : r.state ≠ .waiting → r.names l = false := fun hr => by
      rw [Bool.eq_false_iff]
      exact fun hrl => hidle' ⟨i, r, hstill, hr, hrl⟩
    refine (hrun.cellsStand l (.inr ⟨?_, hidle'⟩)).trans (h.cells l hnot)
    rintro ⟨j, x, hx, hxlive, hxnames⟩
    by_cases hj : j = i
    · subst hj
      obtain rfl := Option.some.inj (h.slot_self.symm.trans hx)
      rw [hnot hxlive] at hxnames
      cases hxnames
    · exact hidle ⟨j, x, (h.slot_ne hj).symm.trans hx, hxlive, hxnames⟩

/-- The cell of a line no older record names is as the birth left it (R73). -/
theorem Birth.cell_of_unnamed (h : Birth s u i r) (hrun : TableRun cause u m t) (hstill : t.slots.get i = some r) {l : LineId}
    (hnames : ∀ j, j ∈ m → ∀ w ∈ s.slots.get j, w.names l = false) : t.cells.get l = u.cells.get l := by
  refine hrun.cell_ne fun j hj w hw hl => ?_
  rw [hnames j hj w ((h.older hrun hstill hj).2.symm.trans hw)] at hl
  cases hl

/-- The cell of a line no record names (R73). -/
theorem Birth.cell_free (h : Birth s u i r) (hrun : TableRun cause u m t) (hstill : t.slots.get i = some r) {l : LineId}
    (hnot : r.state ≠ .waiting → r.names l = false) (hheld : ¬ s.lineHeld l) (hwanted : ¬ s.lineWanted l) :
    t.cells.get l = s.cells.get l := by
  refine (h.cell_of_unnamed hrun hstill fun j _ w hw => ?_).trans (h.cells l hnot)
  rw [Bool.eq_false_iff]
  intro hl
  by_cases hwaiting : w.state = .waiting
  · exact hwanted ⟨j, w, hw, hwaiting, hl⟩
  · exact hheld ⟨j, w, hw, hwaiting, hl⟩

end

/-! ## CLAIM granted at once -/

/-- A record an eligibility evaluation tests stands, or passes between HELD and YIELDING (R51). -/
theorem Record.answers_passes (w : Record) (faced : Bool) {t : State} {now window : Nat} (hnow : t.now = now)
    (hwindow : t.profile.yieldWindow = window) : w.answers faced now window = w ∨ w.passes t (w.answers faced now window) := by
  subst hnow hwindow
  unfold Record.answers
  split
  next h => exact .inr (.inl ⟨h.1, rfl⟩)
  next =>
    split
    next h => exact .inr (.inr ⟨h.1, rfl⟩)
    next => exact .inl rfl

/-- The cells of a granted claim's lines after the evaluation (R43, R44, R73). -/
theorem State.claims_knowsGrant {s : State} {n : HostId} {a : ClaimArgs} {i : SlotId} (hfree : s.lowestFree i)
    (hgrant : s.grantsArrival n a) (hlines : (a.entries.map fun e => e.line).Nodup) :
    (s.grantInto i (newRecord s n a)).eligibility.knowsGrant i (newRecord s n a) s.now s.profile.settle := by
  have hbirth := Birth.claims hfree hgrant
  have hstill := State.claims_slot ((arrivalGrantable_iff s n a).mpr hgrant) i
  obtain ⟨m, hrun⟩ := State.eligibility_run_self .released (s.grantInto i (newRecord s n a))
  have hprofile := hrun.tableOnly.kept.2.2.2.2.2.2.1
  refine (s.knowsGrant_grantInto i hlines).kept (fun l hl => ?_) hprofile
  refine hbirth.cell_of_unnamed hrun hstill fun j hj w hw => ?_
  rw [Bool.eq_false_iff]
  intro hwl
  have hidle := (hgrant l (((newRecord s n a).names_iff l).mp hl)).1
  by_cases hwaiting : w.state = .waiting
  · refine hrun.not_mem_of_stands (hbirth.stands hw) ?_ hj
    rw [State.eligibility_slots, hbirth.stands hw, Option.map_some, Record.answers_of_not_presenting (.inl hwaiting)]
  · exact hidle ⟨j, w, hw, hwaiting, hwl⟩

/-- The code of the state of a record granted at once (R21, R43, R44). -/
theorem grantedState_code (s : State) : (grantedState s).code = if s.profile.settle = 0 then 3#8 else 2#8 := by
  unfold grantedState
  split <;> rfl

/-- A CLAIM that passes the checks and is grantable (R21). -/
theorem handleClaim_of_grants {s : State} {n : HostId} {q : Request} {a : ClaimArgs} {i : SlotId}
    (hargs : claimArgs q.payload = some a) (hpasses : s.passes n a) (hgrant : s.grantsArrival n a) (hfree : s.lowestFree i) :
    handleClaim s n q = ((s.grantInto i (newRecord s n a)).eligibility,
      { status := .ok, payload := [a.ticket, (grantedState s).code] }) := by
  rw [handleClaim_of_passes hargs hpasses hfree, State.admitClaim, if_pos ((arrivalGrantable_iff s n a).mpr hgrant)]

/-- A granted claim's evaluation makes older records pass between HELD and YIELDING alone (R51). -/
theorem State.claims_onlyYields {s : State} {n : HostId} {a : ClaimArgs} {i : SlotId} (hfree : s.lowestFree i)
    (hgrant : s.grantsArrival n a) : onlyYields s (s.grantInto i (newRecord s n a)).eligibility i := by
  obtain ⟨hnow, _, _, _, _, _, hprofile, _⟩ := (tableOnly.claims s i (newRecord s n a)).kept
  obtain ⟨hnow', _, _, _, _, _, hprofile', _⟩ := (tableOnly.grantInto s i (newRecord s n a)).kept
  intro j hj
  have hslot := State.eligibility_slots (s.grantInto i (newRecord s n a)) j
  rw [(Birth.claims hfree hgrant).slot_ne hj] at hslot
  cases hw : s.slots.get j with
  | none =>
    rw [hw] at hslot
    exact .inl hslot
  | some w =>
    rw [hw, Option.map_some] at hslot
    rw [hslot]
    refine (w.answers_passes _ (hnow.trans hnow'.symm) (by rw [hprofile, hprofile'])).imp (congrArg some) fun hpasses => ?_
    exact ⟨w, rfl, _, rfl, hpasses⟩

/-- The ticket of a claim that passes has no notice, and a birth and the run after it post none (R17, R21). -/
theorem noticeOf_eq_none_of_passes {s t : State} {n : HostId} {a : ClaimArgs} (hpasses : s.passes n a) (h : entriesStand s t n) :
    t.noticeOf n a.ticket = none := by
  obtain ⟨-, -, hticket, -⟩ := hpasses
  have hboard := h.2 a.ticket fun j w hw howner htk => absurd (.inl fun hnone => hnone j w hw howner htk) hticket
  rw [hboard]
  exact Option.not_isSome_iff_eq_none.mp fun hsome => hticket (.inr hsome)

/-- Settles O27, by what the birth of a granted record and the eligibility evaluation after it leave. -/
theorem claimGrantedAtOnce : Obligations.ClaimGrantedAtOnce := by
  intro s dt n q a i htakes hargs hpasses hgrant hfree
  have hstep : exec (.claim dt) s = .next _ :=
    congrArg Host.Outcome.next (State.takeChosen_of_handled htakes dt
      (handleClaim_of_grants (s := s.turn dt .claim n) hargs hpasses hgrant hfree))
  have hbirth := Birth.claims (s := s.turn dt .claim n) hfree hgrant
  have hstill := State.claims_slot (s := s.turn dt .claim n) ((arrivalGrantable_iff (s.turn dt .claim n) n a).mpr hgrant) i
  have hknows := State.claims_knowsGrant (s := s.turn dt .claim n) hfree hgrant (nodup_of_claimArgs hargs)
  have hyields := State.claims_onlyYields (s := s.turn dt .claim n) hfree hgrant
  have htable := tableOnly.claims (s.turn dt .claim n) i (newRecord (s.turn dt .claim n) n a)
  obtain ⟨m, hrun⟩ := State.eligibility_run_self .released
    ((s.turn dt .claim n).grantInto i (newRecord (s.turn dt .claim n) n a))
  have hboards (h : HostId) := hbirth.boardStands hrun hstill h
  have hprofile := htable.kept.2.2.2.2.2.2.1
  generalize ((s.turn dt .claim n).grantInto i (newRecord (s.turn dt .claim n) n a)).eligibility = v at *
  have hrecord := hstill.trans (congrArg (fun x : Record => some (x.granted (s.now + dt) s.profile.settle))
    (newRecord_eq (s.turn dt .claim n) n a))
  have hcells := hbirth.cellsStand hrun hstill
  refine ⟨_, nextEntry s.slots, hstep, htable.reply n q _, fun j w hw => entry_lt_nextEntry hw, hrecord, hyields,
    fun e he => ?_, fun l hl hheld hwanted => ?_, hcells, htable.2,
    fun h => ⟨hbirth.otherBoardsFollow hrun hstill h, hboards h⟩, noticeOf_eq_none_of_passes (s := s) hpasses (hboards n).2,
    posts_reply htable.ports n q (congrArg (fun x => [a.ticket, x]) (grantedState_code _))⟩
  · have hknown := hknows e he
    rw [hprofile] at hknown
    exact hknown
  · have hnot : ((newRecord (s.turn dt .claim n) n a).granted (s.now + dt) s.profile.settle).names l = false := by
      rw [Record.granted_names, Bool.eq_false_iff]
      exact fun hnames => hl ((Record.names_iff _ l).mp hnames)
    exact hbirth.cell_free hrun hstill (fun _ => hnot) hheld hwanted

/-! ## CLAIM queued -/

/-- A CLAIM that passes the checks and is not grantable, nor try-only (R21, R22). -/
theorem handleClaim_of_queues {s : State} {n : HostId} {q : Request} {a : ClaimArgs} {i : SlotId}
    (hargs : claimArgs q.payload = some a) (hpasses : s.passes n a) (hwait : ¬ s.grantsArrival n a) (hlimit : a.limit ≠ some 0) (hfree : s.lowestFree i) :
    handleClaim s n q = ((s.putRecord i (newRecord s n a)).evaluate,
      { status := .queued
        payload := [a.ticket, natByte (positionOf (s.putRecord i (newRecord s n a)).evaluate.slots i (newRecord s n a))] }) := by
  rw [handleClaim_of_passes hargs hpasses hfree, State.admitClaim, if_neg (fun h => hwait ((arrivalGrantable_iff s n a).mp h)),
    if_neg hlimit]

/-- A record in the queues makes no other record grantable (R31). -/
theorem Birth.not_grantableAt {s u : State} {i : SlotId} {r : Record} (h : Birth s u i r) (hnone : s.noneGrantable) {j : SlotId}
    (hj : j ≠ i) : ¬ u.grantableAt j := by
  rintro ⟨w, hw, hwaiting, hcan⟩
  refine hnone j w ((h.slot_ne hj).symm.trans hw) hwaiting fun l hl => ⟨?_, fun k x hx hk hxwaiting hxl => ?_⟩
  · rintro ⟨k, x, hx, hlive, hxl⟩
    exact (hcan l hl).1 ⟨k, x, h.stands hx, hlive, hxl⟩
  · exact (hcan l hl).2 k x (h.stands hx) hk hxwaiting hxl

/-- Where no record was grantable before, a queued claim's evaluation makes older records pass between HELD and YIELDING alone
(R36, R51). -/
theorem State.queues_onlyYields {s : State} {n : HostId} {a : ClaimArgs} {i : SlotId} (hfree : s.lowestFree i)
    (hnone : s.noneGrantable) : onlyYields s (s.putRecord i (newRecord s n a)).evaluate i := by
  have hbirth := Birth.queues (n := n) (a := a) hfree
  obtain ⟨hnow, _, _, _, _, _, hprofile, _⟩ := (tableOnly.queues s i (newRecord s n a)).kept
  obtain ⟨m, hrun⟩ := State.evaluate_run_self .released (s.putRecord i (newRecord s n a))
  intro j hj
  have hslot := hbirth.slot_ne hj
  cases hw : s.slots.get j with
  | none => exact .inl ((State.evaluate_isNone _ j).mpr (hslot.trans hw))
  | some w =>
    have hu := hslot.trans hw
    by_cases hwaiting : w.state = .waiting
    · exact .inl (State.evaluate_slot_of_waiting hu hwaiting (hbirth.not_grantableAt hnone hj))
    cases hw' : (s.putRecord i (newRecord s n a)).evaluate.slots.get j with
    | none => cases hu.symm.trans ((State.evaluate_isNone _ j).mp hw')
    | some w' =>
      obtain ⟨x, hx, hstands⟩ := hrun.some_of_some hw'
      obtain rfl := Option.some.inj (hu.symm.trans hx)
      rcases hstands with rfl | ⟨-, hmoved⟩
      · exact .inl rfl
      · refine .inr ⟨w, rfl, w', rfl, ?_⟩
        rw [Record.passes, hnow, hprofile]
        exact hmoved.remains.resolve_left fun h => hwaiting h.1

/-- The queue position of a queued claim (R22, R29). -/
theorem State.queues_standsAt {s : State} {n : HostId} {a : ClaimArgs} {i : SlotId} (hfree : s.lowestFree i)
    (hwait : arrivalGrantable s.slots (s.profile.hosts.get n).priority a.entries = false) (hlines : a.entries ≠ []) :
    (s.putRecord i (newRecord s n a)).evaluate.standsAt (newRecord s n a)
      (positionOf (s.putRecord i (newRecord s n a)).evaluate.slots i (newRecord s n a)) := by
  obtain ⟨m, hrun⟩ := State.evaluate_run_self .released (s.putRecord i (newRecord s n a))
  refine positionOf_standsAt (State.queues_slot hfree.1 hwait) rfl (fun j w hw hentry => ?_) hlines
  by_contra hj
  obtain ⟨x, hx, hstands⟩ := hrun.some_of_some hw
  have hold : s.slots.get j = some x := ((Birth.queues hfree).slot_ne hj).symm.trans hx
  have hkept : w.entry = x.entry := by
    rcases hstands with rfl | ⟨-, hmoved⟩
    · rfl
    · exact hmoved.keeps.2.2.2.1
  exact absurd (hkept.symm.trans hentry) (entry_lt_nextEntry hold).ne

/-- Settles O28, by what the birth of a queued record and the evaluation after it leave. -/
theorem claimQueued : Obligations.ClaimQueued := by
  intro s dt n q a i htakes hargs hpasses hwait hlimit hfree
  have hrefused : arrivalGrantable s.slots (s.profile.hosts.get n).priority a.entries = false :=
    Bool.eq_false_iff.mpr fun h => hwait ((arrivalGrantable_iff s n a).mp h)
  have hstep : exec (.claim dt) s = .next _ := congrArg Host.Outcome.next (State.takeChosen_of_handled htakes dt
    (handleClaim_of_queues (s := s.turn dt .claim n) hargs hpasses hwait hlimit hfree))
  have hbirth := Birth.queues (s := s.turn dt .claim n) (n := n) (a := a) hfree
  have hstill := State.queues_slot (s := s.turn dt .claim n) (n := n) hfree.1 hrefused
  have hplace := State.queues_standsAt (s := s.turn dt .claim n) hfree hrefused (entries_ne_nil_of_claimArgs hargs)
  have hyields := State.queues_onlyYields (s := s.turn dt .claim n) (n := n) (a := a) hfree
  have htable := tableOnly.queues (s.turn dt .claim n) i (newRecord (s.turn dt .claim n) n a)
  obtain ⟨m, hrun⟩ := State.evaluate_run_self .released ((s.turn dt .claim n).putRecord i (newRecord (s.turn dt .claim n) n a))
  have hrecord := newRecord_eq (s.turn dt .claim n) n a
  generalize ((s.turn dt .claim n).putRecord i (newRecord (s.turn dt .claim n) n a)).evaluate = v at *
  have hcells := hbirth.cellsStand hrun hstill
  refine ⟨_, nextEntry s.slots, _, hstep, htable.reply n q _, fun j w hw => entry_lt_nextEntry hw,
    hstill.trans (congrArg some hrecord), fun _ hnone => hyields hnone,
    fun l hheld hwanted => hbirth.cell_free hrun hstill (fun hlive => absurd rfl hlive) hheld hwanted, hcells, htable.2,
    fun h => ⟨hbirth.otherBoardsFollow hrun hstill h, hbirth.boardStands hrun hstill h⟩, ?_, posts_reply htable.ports n q rfl⟩
  rw [hrecord] at hplace
  exact hplace

end Sys2Proof.Machine
end

section
/-! SUPPORT. Grants of WAITING records (R34, R35, R37, R48): whatever the command, a record is granted whole. -/

namespace Sys2Proof.Machine

/-- From `s` to `t`, the WAITING record `r` of slot `i` was granted whole and stands as `r'` (R35, R48). -/
def grantedWhole (s t : State) (i : SlotId) (r r' : Record) : Prop :=
  r' = r.granted t.now s.profile.settle
    ∧ ∀ e ∈ r.lines,
        if s.profile.settle = 0 then
          t.applies e.line { slot := i, owner := r.owner, ticket := r.ticket, state := .held } e.setting t.now
            ∧ t.noticeOf r.owner r.ticket = some .granted
        else
          (t.cells.get e.line).holder = some { slot := i, owner := r.owner, ticket := r.ticket, state := .settling }
            ∧ (t.cells.get e.line).presented = (t.profile.lines.get e.line).rest.pin

/-- What a run leaves of a WAITING record it moves and does not free (R34, R35). -/
theorem TableRun.grantsWhole {s u w t : State} {cause : FreeCause} {m : List SlotId} (hstarts : Starts s u)
    (hrun : TableRun cause u m w) (hends : Ends w t) {i : SlotId} {r r' : Record} (howns : s.owns r.owner r.ticket i r)
    (hwaiting : r.state = .waiting) (hr' : t.slots.get i = some r') (hlive : r'.state ≠ .waiting)
    (hlines : (r.lines.map fun e => e.line).Nodup) : grantedWhole s t i r r' := by
  have hu := hstarts.stands i r howns.1
  have hw : w.slots.get i = some r' := by rw [← hends.slots]; exact hr'
  have hnow : t.now = u.now := by rw [hends.now, hrun.tableOnly.kept.1]
  obtain ⟨x, hx, hstands⟩ := hrun.some_of_some hw
  obtain rfl := Option.some.inj (hu.symm.trans hx)
  rcases hstands with rfl | ⟨hi, hmoved⟩
  · exact absurd hwaiting hlive
  have hgranted : r' = r.granted u.now u.profile.settle := by
    rcases hmoved.remains with h | h | h
    · exact h.2
    · exact absurd (hwaiting.symm.trans h.1) (by decide)
    · exact absurd (hwaiting.symm.trans h.1) (by decide)
  have hknows := hrun.knowsGrant hi hu hwaiting (by simp [hw]) hlines
  have hnotice := hrun.notice_moved hstarts hends hi howns hr' hmoved.keeps.1
  refine ⟨by rw [hgranted, hnow, hstarts.settle], fun e he => ?_⟩
  have hknown := hknows e he
  rw [hstarts.settle] at hknown hnotice
  rw [hnow, hends.lines]
  unfold State.applies at hknown ⊢
  rw [hends.cells]
  split
  next hsettle =>
    rw [if_pos hsettle] at hknown
    refine ⟨hknown, hnotice.trans ?_⟩
    rw [Record.movedNotice, if_pos hwaiting, if_pos hsettle]
  next hsettle =>
    rw [if_neg hsettle] at hknown
    exact hknown

/-- A settle end grants no WAITING record (R45, R51). -/
theorem State.settleEnd_waiting {s : State} {i j : SlotId} {r w : Record} (hr : s.slots.get i = some r)
    (hstate : r.state = .settling)
    (hw : s.slots.get j = some w) (hwaiting : w.state = .waiting) : (s.settleEnd i r).slots.get j = some w := by
  have hj : j ≠ i := by
    rintro rfl
    rw [hr] at hw
    obtain rfl := Option.some.inj hw
    rw [hstate] at hwaiting
    cases hwaiting
  cases hd : demanded s.slots s.eligible r with
  | true => rw [State.settleEnd_slots_faced hd, if_neg hj, hw]
  | false =>
    rw [State.settleEnd_slots hd hr, if_neg hj, hw, Option.map_some, Record.answers_of_not_presenting (.inl hwaiting)]

/-- Whatever an event does, a WAITING record it makes live was granted whole (R34, R35, R37). -/
theorem Effect.grantsWhole {c : Instr} {s t : State} (h : Effect c s t) {i : SlotId} {r r' : Record}
    (howns : s.owns r.owner r.ticket i r) (hwaiting : r.state = .waiting) (hr' : t.slots.get i = some r')
    (hlive : r'.state ≠ .waiting) (hlines : (r.lines.map fun e => e.line).Nodup) : grantedWhole s t i r r' := by
  cases h.route with
  | stays hstays => exact absurd ((hstays i r howns.1 r' hr').1.trans hwaiting) hlive
  | settles j x hx hstate ht =>
    rw [ht, State.settleEnd_waiting hx hstate howns.1 hwaiting] at hr'
    obtain rfl := Option.some.inj hr'
    exact absurd hwaiting hlive
  | runs cause u w m hstarts hrun hends => exact hrun.grantsWhole hstarts hends howns hwaiting hr' hlive hlines

/-- A grant seen across what a command does beside its effect. -/
theorem grantedWhole.of_quiet {s u v t : State} {i : SlotId} {r r' : Record} (h : grantedWhole u v i r r')
    (hprofile : u.profile = s.profile) (hquiet : quiet v t) (hnow : t.now = v.now) : grantedWhole s t i r r' := by
  obtain ⟨-, -, -, -, -, -, hcells, hboards, hlines, -⟩ := hquiet.kept
  unfold grantedWhole State.applies State.noticeOf at *
  rw [hprofile] at h
  rw [hnow, hcells, hboards, hlines]
  exact h

/-- Settles O33: the runs of every command grant whole. -/
theorem waitersAreGrantedWhole : Obligations.WaitersAreGrantedWhole := by
  intro s t c i r r' hstep hr hwaiting hr' hlive hlines _ halone
  obtain ⟨u, v, w, hsu, huv, heffect, hwt, hnow⟩ := exec_effect hstep
  obtain ⟨-, -, -, -, hslots, -, -, -, hprofile, -⟩ := hsu.kept
  have hframe := huv.frame
  have hslots' : v.slots = s.slots := by rw [hframe, ← hslots]
  have hprofile' : v.profile = s.profile := by rw [hframe, ← hprofile]
  have howns : v.owns r.owner r.ticket i r := by
    unfold State.owns
    rw [hslots']
    exact ⟨hr, rfl, rfl, halone⟩
  have hw : w.slots.get i = some r' := by rw [← hwt.kept.2.2.2.2.1]; exact hr'
  exact (heffect.grantsWhole howns hwaiting hw hlive hlines).of_quiet hprofile' hwt hnow

end Sys2Proof.Machine
end

section
/-! SUPPORT. SET LINE PROFILE accepted (R72, R125, R126): the edit, and the records it denies. -/

namespace Sys2Proof.Machine

/-! ## The edit, read from the payload -/

/-- The profile an edit gives a line is that of the line's byte in the payload, if it has one (R125). -/
theorem entryFor_lineByte {p : List Byte} {es : List (LineId × LineProfile)} (h : lineProfileArgs p = some es) (l : LineId) :
    (lineByte p l = none ∧ entryFor es l = none)
      ∨ ∃ b x, lineByte p l = some b ∧ entryFor es l = some x ∧ LineProfile.ofByte b = some x := by
  obtain ⟨k, rest, rfl, hread, hcount, hnodup⟩ := lineProfileArgs_eq_some h
  have hgives := (profileEntries_gives hread).2
  have hbyte : lineByte (k :: rest) l
      = ((List.range es.length).find? fun j => (rest.getD (2 * j) 0#8).toNat == l.val).map fun j => rest.getD (2 * j + 1) 0#8 := by
    simp only [lineByte, getD_entries, List.getD_cons_zero, hcount]
  rw [hbyte]
  cases hfound : (List.range es.length).find? fun j => (rest.getD (2 * j) 0#8).toNat == l.val with
  | none =>
    refine .inl ⟨rfl, ?_⟩
    rw [entryFor, Option.map_eq_none_iff, List.find?_eq_none]
    intro e he heq
    obtain ⟨j, hj, rfl⟩ := List.mem_iff_getElem.mp he
    refine List.find?_eq_none.mp hfound j (List.mem_range.mpr hj) ?_
    rw [(hgives j hj).1, beq_iff_eq.mp heq]
    exact beq_self_eq_true _
  | some j =>
    have hj : j < es.length := List.mem_range.mp (List.mem_of_find?_eq_some hfound)
    have hbit : (rest.getD (2 * j) 0#8).toNat = l.val := by simpa using List.find?_some hfound
    have hl : es[j].1 = l := Fin.ext ((hgives j hj).1.symm.trans hbit)
    refine .inr ⟨_, es[j].2, rfl, ?_, (hgives j hj).2⟩
    cases hentry : es.find? fun e => e.1 == l with
    | none => exact absurd (beq_iff_eq.mpr hl) (List.find?_eq_none.mp hentry _ (List.getElem_mem hj))
    | some e =>
      have he : e = es[j] := List.inj_on_of_nodup_map hnodup (List.mem_of_find?_eq_some hentry) (List.getElem_mem hj)
        ((by simpa using List.find?_some hentry : e.1 = l).trans hl.symm)
      rw [entryFor, hentry, he]
      rfl

/-- A line the payload gives no byte is not edited (R125). -/
theorem entryFor_isSome {p : List Byte} {es : List (LineId × LineProfile)} (h : lineProfileArgs p = some es) (l : LineId) :
    (entryFor es l).isSome = true ↔ lineByte p l ≠ none := by
  rcases entryFor_lineByte h l with ⟨hbyte, hentry⟩ | ⟨b, x, hbyte, hentry, -⟩ <;> simp [hbyte, hentry]

/-- The masks and rest states after an edit (R125). -/
theorem storeLines_line {p : List Byte} {es : List (LineId × LineProfile)} (h : lineProfileArgs p = some es) (s : State)
    (l : LineId) :
    (lineByte p l = none → (s.storeLines es).profile.lines.get l = s.profile.lines.get l)
      ∧ ∀ b ∈ lineByte p l, ((s.storeLines es).profile.lines.get l).mask = b.setWidth 4
          ∧ ((s.storeLines es).profile.lines.get l).rest.code.toNat = b.toNat / 16 % 8 := by
  have hline : (s.storeLines es).profile.lines.get l = (entryFor es l).getD (s.profile.lines.get l) := by
    rw [State.storeLines_profile]
    exact Table.get_ofFn _ _
  rw [hline]
  rcases entryFor_lineByte h l with ⟨hbyte, hentry⟩ | ⟨b, x, hbyte, hentry, hx⟩
  · rw [hbyte, hentry]
    exact ⟨fun _ => rfl, fun b hb => (by cases hb)⟩
  · rw [hbyte, hentry]
    refine ⟨fun hnone => (by cases hnone), fun b' hb' => ?_⟩
    obtain rfl := Option.some.inj hb'
    exact lineProfile_ofByte_eq_some hx

/-- Whether an edit takes a host out of a line's mask (R126). -/
theorem removes_iff {p : List Byte} {es : List (LineId × LineProfile)} (h : lineProfileArgs p = some es) (s : State) (l : LineId)
    (n : HostId) : removes s es l n = true
      ↔ ∃ b ∈ lineByte p l, has (s.profile.lines.get l).mask n = true ∧ b.getLsbD n.val = false := by
  rcases entryFor_lineByte h l with ⟨hbyte, hentry⟩ | ⟨b, x, hbyte, hentry, hx⟩
  · simp [removes, hbyte, hentry]
  · have hmask : has x.mask n = b.getLsbD n.val := by
      rw [(lineProfile_ofByte_eq_some hx).1, has, BitVec.getLsbD_setWidth, decide_eq_true n.isLt, Bool.true_and]
    simp [removes, hbyte, hentry, hmask]

/-- The records an edit excludes (R126). -/
theorem excludes_iff {p : List Byte} {es : List (LineId × LineProfile)} (h : lineProfileArgs p = some es) (s : State) (r : Record) :
    (r.state == .waiting && r.lines.any fun e => removes s es e.line r.owner) = true ↔ s.denies p r := by
  rw [Bool.and_eq_true, beq_iff_eq, List.any_eq_true]
  refine and_congr_right fun _ => ?_
  constructor
  · rintro ⟨e, he, hremoves⟩
    exact ⟨e.line, (Record.names_iff r _).mpr ⟨e, he, rfl⟩, (removes_iff h s e.line r.owner).mp hremoves⟩
  · rintro ⟨l, hl, hdenies⟩
    obtain ⟨e, he, rfl⟩ := (Record.names_iff r l).mp hl
    exact ⟨e, he, (removes_iff h s e.line r.owner).mpr hdenies⟩

/-- The slots of the records an edit excludes (R126). -/
theorem mem_excluded {p : List Byte} {es : List (LineId × LineProfile)} (h : lineProfileArgs p = some es) {s : State} {i : SlotId}
    {r : Record} (hr : s.slots.get i = some r) : i ∈ excluded s es ↔ s.denies p r := by
  rw [excluded, mem_slotsWhere, hr, ← excludes_iff h]
  exact ⟨fun ⟨_, hx, hexcludes⟩ => Option.some.inj hx ▸ hexcludes, fun hexcludes => ⟨r, rfl, hexcludes⟩⟩

/-- The number of records an edit excludes (R126). -/
theorem length_excluded {p : List Byte} {es : List (LineId × LineProfile)} (h : lineProfileArgs p = some es) (s : State) :
    (excluded s es).length = (List.finRange 32).countP fun i =>
      match s.slots.get i with | some r => decide (s.denies p r) | none => false := by
  rw [excluded, slotsWhere, List.length_map, ← List.countP_eq_length_filter, countP_recordsOf]
  refine congrArg (fun f => List.countP f _) (funext fun i => ?_)
  cases s.slots.get i with
  | none => rfl
  | some r => exact Bool.eq_iff_iff.mpr ((excludes_iff h s r).trans decide_eq_true_iff.symm)

/-! ## The edited lines -/

/-- The cell of a line whose profile has been stored (R72, R125). -/
theorem tellRest_cell (s : State) (es : List (LineId × LineProfile)) (l : LineId) :
    ((s.storeLines es).tellRest es).cells.get l =
      if (entryFor es l).isSome then (s.cells.get l).present ((s.storeLines es).restOf l) else s.cells.get l :=
  Table.get_ofFn _ _

/-- A cell with no holder presents the rest state it is told (R70, R72). -/
theorem Cell.present_of_idle {c : Cell} (h : c.holder = none) (rest : Rest) :
    c.present rest = { c with presented := rest.pin } := by
  have hclaimed : c.claimed = none := by simp only [Cell.claimed, h]
  have hshown : c.shown rest = rest.pin := by simp only [Cell.shown, hclaimed, restPresented_eq]
  rw [Cell.present, hshown]

/-- A cell with no holder presents its line's rest state (R70, R74). -/
theorem State.presentsRight.idle {s : State} (h : s.presentsRight) {l : LineId} (hidle : (s.cells.get l).holder = none) :
    (s.cells.get l).presented = (s.profile.lines.get l).rest.pin := by
  have hl := h l
  split at hl
  next =>
    rw [hidle] at hl
    exact hl
  next =>
    rw [hl.1, hl.2.2]
    rfl

/-- A line with no holder presents the rest state an edit leaves it (R72, R125). -/
theorem tellRest_cell_idle {p : List Byte} {es : List (LineId × LineProfile)} (h : lineProfileArgs p = some es) {s : State}
    (hs : s.presentsRight) {l : LineId} (hidle : (s.cells.get l).holder = none) :
    ((s.storeLines es).tellRest es).cells.get l =
      { s.cells.get l with presented := ((s.storeLines es).profile.lines.get l).rest.pin } := by
  rw [tellRest_cell]
  split
  next => exact Cell.present_of_idle hidle _
  next hentry =>
    have hbyte : lineByte p l = none := by
      by_contra hne
      exact hentry ((entryFor_isSome h l).mpr hne)
    rw [(storeLines_line h s l).1 hbyte, ← hs.idle hidle]

/-- An edit changes at most what a line presents (R72, R125). -/
theorem tellRest_cell_carriesOn {p : List Byte} {es : List (LineId × LineProfile)} (h : lineProfileArgs p = some es) (s : State)
    (l : LineId) :
    ((s.storeLines es).tellRest es).cells.get l =
      { s.cells.get l with
        presented := if lineByte p l = none then (s.cells.get l).presented
          else (((s.storeLines es).tellRest es).cells.get l).presented } := by
  split
  next hbyte =>
    rw [tellRest_cell, if_neg fun hsome => (entryFor_isSome h l).mp hsome hbyte]
  next =>
    rw [tellRest_cell]
    split <;> rfl

/-! ## The records denied -/

/-- An edit runs as the freeing of the records it excludes, and frees no other (R126). -/
theorem State.applyLineProfile_run (s : State) (es : List (LineId × LineProfile)) :
    (∃ m, TableRun .denied ((s.storeLines es).tellRest es) m (s.applyLineProfile es))
      ∧ ∀ j, (s.applyLineProfile es).slots.get j = none ↔ j ∈ excluded s es ∨ s.slots.get j = none := by
  by_cases hempty : excluded s es = []
  · have happly : s.applyLineProfile es = (s.storeLines es).tellRest es := if_pos hempty
    rw [happly, hempty]
    exact ⟨⟨[], .refl⟩, fun j => ⟨.inr, fun h => h.resolve_left List.not_mem_nil⟩⟩
  · have happly : s.applyLineProfile es = ((s.storeLines es).tellRest es).freeAll (excluded s es) .denied := if_neg hempty
    rw [happly]
    exact State.freeAll_run _ _ _

/-- An edit that excludes no record changes none (log 17). -/
theorem State.applyLineProfile_of_none {s : State} {es : List (LineId × LineProfile)}
    (h : ∀ i r, s.slots.get i = some r → i ∉ excluded s es) : s.applyLineProfile es = (s.storeLines es).tellRest es := by
  refine if_pos (List.eq_nil_iff_forall_not_mem.mpr fun i hi => ?_)
  obtain ⟨r, hr, -⟩ := (mem_slotsWhere _ _ _).mp hi
  exact h i r hr hi

/-- A SET LINE PROFILE that passes its checks (R124, R125). -/
theorem handleSetLineProfile_of_passes {s : State} {n : HostId} {q : Request} {es : List (LineId × LineProfile)}
    (hadmin : has s.profile.admin n = true) (hopen : s.profile.state = .opened) (hargs : lineProfileArgs q.payload = some es) :
    handleSetLineProfile s n q = (s.applyLineProfile es, { status := .ok, payload := [natByte (excluded s es).length] }) :=
  profileEdit_of_passes hadmin hopen hargs _

/-- From `s` to `t`, the SET LINE PROFILE payload `p` was carried out (R72, R125, R126). -/
structure LineEdit (s t : State) (p : List Byte) : Prop where
  frame : t = { s with
    slots := t.slots, eligible := t.eligible, cells := t.cells, boards := t.boards
    profile := { s.profile with lines := t.profile.lines } }
  lines : ∀ l, (lineByte p l = none → t.profile.lines.get l = s.profile.lines.get l)
    ∧ ∀ b ∈ lineByte p l, (t.profile.lines.get l).mask = b.setWidth 4
        ∧ (t.profile.lines.get l).rest.code.toNat = b.toNat / 16 % 8
  remain : recordsRemain s t
  lost : recordsLost s t fun _ r => s.denies p r
  denied : ∀ i, ∀ r ∈ s.slots.get i, s.denies p r →
    t.noticeOf r.owner r.ticket = some .denied ∧ (t.boards.get r.owner).clearOf r
  spared : (∀ i, ∀ r ∈ s.slots.get i, ¬ s.denies p r) → t.slots = s.slots ∧ t.boards = s.boards ∧ t.eligible = s.eligible
  idle : ∀ l, (∀ i, ∀ r ∈ s.slots.get i, r.names l = false) → (s.cells.get l).holder = none →
    t.cells.get l = { s.cells.get l with presented := (t.profile.lines.get l).rest.pin }
  stand : ∀ l, lineStands s t l → t.cells.get l =
    { s.cells.get l with
      presented := if lineByte p l = none then (s.cells.get l).presented else (t.cells.get l).presented }
  samples : samplesKept s t
  boards : ∀ h, otherBoardsFollow s t h ∧ boardStands s t h

/-- What an edit of the lines leaves. -/
theorem State.applyLineProfile_edits {s : State} {p : List Byte} {es : List (LineId × LineProfile)}
    (hargs : lineProfileArgs p = some es) (hcapacity : s.capacityKept) (hpresents : s.presentsRight) :
    LineEdit s (s.applyLineProfile es) p := by
  obtain ⟨⟨m, hrun⟩, hgone⟩ := s.applyLineProfile_run es
  have htable := s.applyLineProfile_frame es
  have hnone := State.applyLineProfile_of_none (s := s) (es := es)
  have hprofile : (s.applyLineProfile es).profile = (s.storeLines es).profile := htable.kept.2.2.2.2.2.2.1
  have hlost (j : SlotId) (r : Record) (hr : s.slots.get j = some r) :
      s.denies p r ↔ (s.applyLineProfile es).slots.get j = none := by
    rw [hgone, mem_excluded hargs hr, hr]
    exact (or_iff_left (by simp)).symm
  generalize s.applyLineProfile es = t at *
  refine ⟨?_, ?_, hrun.recordsRemain, hlost, fun i r hr hdenies => ?_, fun h => ?_, fun l hl hholder => ?_, fun l hl => ?_,
    htable.2, fun h => ⟨hrun.otherBoardsFollow h, hrun.boardStands h⟩⟩
  · rw [hprofile]
    exact htable.1
  · rw [hprofile]
    exact storeLines_line hargs s
  · have hfreed := (hlost i r hr).mp hdenies
    have howns : s.owns r.owner r.ticket i r :=
      ⟨hr, rfl, rfl, fun j w hw howner htk => hcapacity.1 j w hw i r hr howner htk⟩
    exact ⟨hrun.notice_gone howns hfreed (by decide), hrun.clearOf_gone hr hfreed⟩
  · rw [hnone fun i r hr hi => h i r hr ((mem_excluded hargs hr).mp hi)]
    exact ⟨rfl, rfl, rfl⟩
  · rw [hprofile, ← tellRest_cell_idle hargs hpresents hholder]
    refine hrun.cell_ne fun i _ r hr hnames => ?_
    rw [hl i r hr] at hnames
    cases hnames
  · rw [hrun.cellsStand l hl]
    exact tellRest_cell_carriesOn hargs s l

/-- Settles O43, by the edit of the lines and the freeing of the records it excludes. -/
theorem setLineProfileEditsAndDenies : Obligations.SetLineProfileEditsAndDenies := by
  intro s dt n q htakes ⟨hadmin, hopen, hgood⟩ hcapacity hpresents
  cases hargs : lineProfileArgs q.payload with
  | none => exact absurd (.inl ⟨rfl, (lineProfileArgs_eq_none _).mp hargs⟩) hgood
  | some es =>
    have hstep : exec (.setLineProfile dt) s = .next _ := congrArg Host.Outcome.next (State.takeChosen_of_handled htakes dt
      (handleSetLineProfile_of_passes (s := s.turn dt .setLineProfile n) hadmin hopen hargs))
    have hcount := congrArg (fun k : Nat => [BitVec.ofNat 8 k]) (length_excluded hargs (s.turn dt .setLineProfile n))
    have hedit := State.applyLineProfile_edits (s := s.turn dt .setLineProfile n) hargs hcapacity hpresents
    have hports := (State.applyLineProfile_frame (s.turn dt .setLineProfile n) es).ports
    generalize (s.turn dt .setLineProfile n).applyLineProfile es = v at *
    refine ⟨_, hstep, State.reply_of_eq hedit.frame n q _, fun l => ⟨(hedit.lines l).1, fun b hb => ?_⟩, hedit.remain,
      hedit.lost, hedit.denied, hedit.spared, hedit.idle, hedit.stand, hedit.samples, hedit.boards, posts_reply hports n q hcount⟩
    obtain ⟨hmask, hrest⟩ := (hedit.lines l).2 b hb
    refine ⟨hmask, Eq.trans ?_ hrest⟩
    rw [State.reply_profile]
    cases (v.profile.lines.get l).rest <;> rfl

end Sys2Proof.Machine
end
